-- ==== Sys2Proof/Word.lean ====
section
/-! DEFINITION. The words of the Gashol 814 (spec 00, Units and ranges) and the two container helpers the state is built from:
a vector of fixed length read and written by index, and one value for each of the four divisions. -/

namespace Sys2Proof

/-- One byte of a frame (spec 11). -/
abbrev Byte := BitVec 8

/-- A part time: a 32-bit count of tu (10 µs), which wraps (spec 00, Units and ranges). -/
abbrev PartTime := BitVec 32

/-- A service position in subticks, 24,576 to the beat. The part holds it in 32 bits; R59 says it never overflows them within a
play, so the model holds the whole number (note 5). -/
abbrev Pos := Int

/-- A step number, 0..2047 (R1). -/
abbrev StepNo := Fin 2048

/-- A list number, 0..63; list 0 is the free list (R1). -/
abbrev ListNo := Fin 64

/-- A plan entry index, 0..63 (R36). -/
abbrev EntryNo := Fin 64

/-- A key number, 0..60; the Pedal has 0..31 (spec 00, Units and ranges). -/
abbrev Key := Fin 61

/-- A registration set number, 0..15 (R45). -/
abbrev SetNo := Fin 16

section Tables

variable {α : Type} {size : Nat}

/-- Row `i` of a table of fixed length. -/
def vget (table : Vector α size) (i : Fin size) : α := table[i.val]

/-- The table with row `i` replaced. -/
def vset (table : Vector α size) (i : Fin size) (row : α) : Vector α size := table.set i.val row i.isLt

theorem vget_vset (table : Vector α size) (i j : Fin size) (row : α) :
    vget (vset table i row) j = if j = i then row else vget table j := by
  simp only [vget, vset, Vector.getElem_set, Fin.ext_iff, eq_comm (a := i.val)]

@[simp] theorem vget_vset_same (table : Vector α size) (i : Fin size) (row : α) : vget (vset table i row) i = row := by
  rw [vget_vset, if_pos rfl]

end Tables

end Sys2Proof
end

