-- ==== Sys2Proof/Syntax.lean ====
section
/-! DEFINITION. The commands of the Gashol 814: one constructor of `Instr` for each row of spec/opcode_table.json. A request row
has no operand: the handler takes the request that stands at the head of its buffer, with its operands as bytes (R174, R188). A
frame row carries the bytes as received. -/

namespace Sys2Proof

/-- The four divisions (spec 00, Units and ranges). -/
inductive Division where
  | pedal | great | swell | positive
  deriving DecidableEq, Repr

/-- The two placement walks: of the current entry (R130) and of the engaged next entry (R131). -/
inductive WalkSel where
  | current | next
  deriving DecidableEq, Repr

/-- The commands: the rows of spec/opcode_table.json, in its order. -/
inductive Instr where
  /-- STOP_PUT (R50): Writes a stop's division, speech lead and bleed length, clamping the lead and the bleed length, and replies with the entry as stored. -/
  | stopPut
  /-- STOP_GET (R50): Returns the stop-table entry of one stop. -/
  | stopGet
  /-- DIV_PUT (R51): Writes a division's chamber delay, clamped to 10,000 tu. -/
  | divPut
  /-- DIV_GET (R51): Returns a division's chamber delay. -/
  | divGet
  /-- REG_PUT (R45): Replaces the contents of a registration set and re-forms the playback stop image if that set is active. -/
  | regPut
  /-- REG_GET (R45): Returns a registration set in ascending order. -/
  | regGet
  /-- PLAN_PUT (R37): Writes a whole plan entry after the length, range and play checks, clamping the clampable fields. -/
  | planPut
  /-- PLAN_GET (R36): Returns the plan entry at an index as stored. -/
  | planGet
  /-- PLAN_SIZE (R43): Sets the plan size after the range and play checks. -/
  | planSize
  /-- FOLLOW_PUT (R179): Replaces the follow profile with clamped values and clamps P into the new range if needed. -/
  | followPut
  /-- FOLLOW_GET (R179): Returns the follow profile. -/
  | followGet
  /-- PICKUP_PUT (R96): Replaces the pickup profile with every value clamped. -/
  | pickupPut
  /-- PICKUP_GET (R96): Returns the pickup profile. -/
  | pickupGet
  /-- SOUND_PUT (R147): Sets the re-strike gap, clamped to 10,000 tu. -/
  | soundPut
  /-- SOUND_GET (R147): Returns the sounding profile. -/
  | soundGet
  /-- STEP_NEW (R25): Checks the request, takes the head of the free list into the target list's count, starts the command and builds the early DONE reply. -/
  | stepNew
  /-- STEP_SET (R26): Checks the request and starts a command that rewrites a step's musical fields and re-places it if its onset changed. -/
  | stepSet
  /-- STEP_MOVE (R27): Checks the request and starts a command that moves a step into a target phrase list in onset order. -/
  | stepMove
  /-- STEP_FREE (R28): Checks the request and starts a one-visit command that appends the step to the free list's tail. -/
  | stepFree
  /-- LIST_EMPTY (R29): Checks the request and starts a command that moves every step of a list to the free list. -/
  | listEmpty
  /-- LIST_LENGTH (R30): Checks the request and starts a one-visit command that sets a list's phrase length. -/
  | listLength
  /-- STEP_GET (R31): Returns a whole step record, or BUSY when the step is touched by the command in flight. -/
  | stepGet
  /-- LIST_GET (R31): Returns a list header and up to 29 step numbers, or BUSY when the list is involved in the command in flight. -/
  | listGet
  /-- MODE (R124): Changes the mode at once or holds the change as the pending mode. -/
  | mode
  /-- START (R100): Checks and starts play at entry 0, sets the beat clock and the lock set, and makes entry 0's registration switch. -/
  | start
  /-- FINISH (R120): Asks that play end after the entry now being played, setting the finish state by play state. -/
  | finish
  /-- HALT (R180): Stops play at once, keeping the confidence, the score and the tables. -/
  | halt
  /-- RELEASE (R118): Ends a hold or a wait and replies with the play state after it. -/
  | release
  /-- TEMPO_NOW (R64): Clamps a period and applies it at once by a re-anchor, discarding any pending tempo. -/
  | tempoNow
  /-- TEMPO_NEXT_BEAT (R65): Stores a clamped period as the pending tempo, or applies it at once while play is IDLE. -/
  | tempoNextBeat
  /-- REG_NOW (R48): Makes a set, or none, the active registration at once. -/
  | regNow
  /-- REPORT_RATE (R76): Sets the BEAT alert rate, clamped to 16. -/
  | reportRate
  /-- FAULT_CLEAR (R156): Clears latched faults of one division or all, restores stops, lifts overrides where the wind is OK, and may clear the escalated flag. -/
  | faultClear
  /-- STATUS (R184): Builds and returns the status record from the state of every block at one moment. -/
  | status
  /-- RESTART (R181): Resets play, the confidence and parts of the detector, keeping the score, the plan, the tables and the protection state. -/
  | restart
  /-- RESET (R182): Answers DONE and stops taking requests, so that a full reset begins once its reply has been sent. -/
  | reset
  /-- UNKNOWN_REQUEST (R176): Answers UNKNOWN to a request whose code names no request. -/
  | unknownRequest
  /-- CONSOLE_KEYS_FRAME (R162): A valid console KEYS frame replaces a division's console key image and marks its key frame due. -/
  | consoleKeysFrame (bytes : List Byte)
  /-- CONSOLE_STOPS_FRAME (R162): A valid console STOPS frame replaces the console stop image and marks the stop frame due. -/
  | consoleStopsFrame (bytes : List Byte)
  /-- MANAGE_FRAME (R160): A MANAGE frame on upstream receive enters the request buffer if addressed to this node, or the downstream queue otherwise. -/
  | manageFrame (bytes : List Byte)
  /-- CIPHER (R151): A CIPHER chest report latches or updates a division's fault, purging the division and withdrawing its stops, and is forwarded up. -/
  | cipher (bytes : List Byte)
  /-- DRIVER (R151): A DRIVER chest report latches or updates a division's fault, purging the division and withdrawing its stops, and is forwarded up. -/
  | driver (bytes : List Byte)
  /-- WIND_LOW (R154): A WIND-LOW report puts every division under override and purges them, and is forwarded up. -/
  | windLow (bytes : List Byte)
  /-- WIND_OK (R155): A WIND-OK report lifts the wind override from divisions not latched and resumes them, and is forwarded up. -/
  | windOk (bytes : List Byte)
  /-- DOWNSTREAM_REPLY (R161): A REPLY frame from a node further down is handed unchanged to the upstream forward queue. -/
  | downstreamReply (bytes : List Byte)
  /-- DOWNSTREAM_ALERT (R161): An ALERT frame from a node further down is handed unchanged to the upstream forward queue. -/
  | downstreamAlert (bytes : List Byte)
  /-- DOWNSTREAM_TAKE (R164): When the downstream lane is free and the queue holds an item, the transmitter takes the head and forms or sends its frame. -/
  | downstreamTake
  /-- DOWNSTREAM_SEND_DONE (R164): The last byte of a downstream frame is sent and the lane becomes free. -/
  | downstreamSendDone
  /-- UPSTREAM_TAKE (R168): When the upstream lane is free, the transmitter takes a forwarded frame, the reply or an alert by precedence. -/
  | upstreamTake
  /-- UPSTREAM_SEND_DONE (R171): The last byte of an upstream frame is sent, freeing the lane, and a full reset begins if it was the RESET reply. -/
  | upstreamSendDone
  /-- POWER_ON (R170): Power-on begins a full reset with cause POWER and asserts the bypass line. -/
  | powerOn
  /-- RESET_INPUT (R170): Assertion of the reset input begins a full reset with cause LINE and asserts the bypass line. -/
  | resetInput
  /-- RESET_END (R170): The full reset ends, the straps are latched and part time becomes 0. -/
  | resetEnd (nodeStraps : BitVec 4) (fourChannels : Bool)
  /-- BYPASS_RELEASE (R170): At the first idle of upstream receive after the reset ends, the bypass line is released and upstream frames are taken. -/
  | bypassRelease
  /-- DOWNSTREAM_RECEIVE_START (R170): Downstream receive begins taking frames at its own first idle after bypass release. -/
  | downstreamReceiveStart
  /-- LEVEL_FRAME (R86): A pickup level frame is checked, gap-filled and entered, then the gather is closed, refractory ends are taken, channels are tested and the cutoff state is updated. -/
  | levelFrame (bytes : List Byte)
  /-- STALE_TIMER_EXPIRY (R84): 5,000 tu without a good frame makes the pickup STALE, discarding the gather and resetting the channels and the cutoff state. -/
  | staleTimerExpiry
  /-- BOOST_EXPIRY (R89): When part time reaches boost-until, boost-until becomes none. -/
  | boostExpiry
  /-- BEAT_BOUNDARY (R74): The running position reaches the next beat boundary, raising the beat count and the highest position. -/
  | beatBoundary
  /-- ANCHOR_RENEWAL (R60): After 2^30 tu in MOVING the anchor is renewed at the present time and position. -/
  | anchorRenewal
  /-- STOP_POINT_REACHED (R68): The position reaches the stop point, the clock becomes HELD and the follower is told. -/
  | stopPointReached
  /-- GAP_ORIGIN_REACHED (R104): In GAP, the position reaching the origin makes play RUNNING. -/
  | gapOriginReached
  /-- PHRASE_END_REACHED (R104): The position reaching a phrase end with no stop point there makes the next entry current. -/
  | phraseEndReached
  /-- NEXT_ENTRY_ENGAGE (R44): The look-ahead reaching a settled next origin engages the next entry and adds its list to the lock set. -/
  | nextEntryEngage
  /-- POINT_OPEN (R105): The position reaching E minus W adds an expected point to the window list. -/
  | pointOpen
  /-- POINT_CLOSE (R106): The position passing E plus W closes an open point as a miss. -/
  | pointClose
  /-- LEAD_IN_EXPIRY (R116): The lead-in timer expiring starts the waiting entry ORGAN-LED, counting a miss unless the pickup is STALE. -/
  | leadInExpiry
  /-- HOLD_TIMER_EXPIRY (R118): The hold timer expiring releases the fermata hold. -/
  | holdTimerExpiry
  /-- ENDING_TO_IDLE (R121): Once every queue is empty and every hold count is 0 in ENDING, play becomes IDLE and an END alert is posted. -/
  | endingToIdle
  /-- PENDING_MODE_EFFECT (R124): A pending mode takes effect at the first moment all playback key images are empty. -/
  | pendingModeEffect
  /-- STEP_PLACE (R132): A placement walk deals with a step within the look-ahead, placing its press and release, or passing over or dropping it. -/
  | stepPlace (walk : WalkSel)
  /-- CATCH_UP_PLACE (R145): A catch-up walk after an override lift places a passed step of the division whose press lies ahead of the position. -/
  | catchUpPlace (d : Division)
  /-- PRESS_ISSUE (R139): A due press passing the drop rule and the gap raises hold counts, updates the image, writes the sounding and raises the boost. -/
  | pressIssue (d : Division)
  /-- RELEASE_ISSUE (R140): A due release lowers hold counts, updates the image and key-up times, and may finish its entry's sounding. -/
  | releaseIssue (d : Division)
  /-- KEY_UP_TIME_EXPIRY (R141): A last key-up time 2^30 tu old becomes none. -/
  | keyUpTimeExpiry (d : Division) (k : Key)
  /-- LIST_VISIT (R22): The list controller makes one visit of its command, reading or rewriting one step record and headers. -/
  | listVisit
  /-- LIST_COMMAND_DONE (R24): The last visit completes, the controller's reply is placed when the slot allows and the phase returns to READY. -/
  | listCommandDone
  /-- DOWNSTREAM_FRAME_DISCARD (R159): A frame taken from downstream receive that fails the check, the length, the kind or the payload tests is discarded unread and unforwarded. -/
  | downstreamFrameDiscard (bytes : List Byte)
  deriving DecidableEq, Repr

end Sys2Proof
end

