-- ==== Sys2Proof/Config.lean ====
section
/-! DEFINITION. What the manual fixes as a constant, and the free values: opaque constants with no body, for what the manual
leaves open (spec 05 R84, R91; 07 R130; 10 R173, R185; notes 3, 4 and 12). -/

namespace Sys2Proof

/-- Subticks in a beat (spec 00: 96 ticks of 256 subticks). -/
def Config.beat : Int := 24576

/-- Subticks in a tick (spec 00). -/
def Config.tick : Int := 256

/-- The look-ahead, two beats of position (R130). -/
def Config.lookAhead : Int := 49152

/-- Most actions of one issue queue (R129). -/
def Config.queueMax : Nat := 48

/-- Most requests of the request buffer (R173). -/
def Config.bufferMax : Nat := 4

/-- Most alerts of the alert queue (R185). -/
def Config.alertMax : Nat := 16

/-- Most frames of the upstream forward queue (R167). -/
def Config.forwardMax : Nat := 8

/-- Most pass-through frames of the downstream queue (R166). -/
def Config.passMax : Nat := 8

/-- Most points of the window list (R105). -/
def Config.windowMax : Nat := 8

/-- The span of the stale timer in tu (R84). -/
def Config.staleSpan : Int := 5000

/-- How long a gather stays open, in tu (R91). -/
def Config.gatherSpan : Int := 2000

/-- How late a press may be issued and still be SOUNDED, in tu (R139). -/
def Config.lateLimit : Int := 500

/-- The age at which the anchor is renewed (R60) and a last key-up time is forgotten (R141). -/
def Config.oldAge : Int := 1073741824

/-- How long after the visit before it a visit is complete at the latest, in tu (R23). -/
def Config.visitSpan : Int := 2

/-- FREE: which of the events due at one part time is taken first ("Either may be taken first"; note 3). -/
opaque Config.freeOrder : Nat → Nat

/-- FREE: whether a list visit that may wait is made now (R23 bounds its time and gives no more; note 4). -/
opaque Config.freeVisit : Nat → Bool

/-- FREE: the tag byte of the reply to a MANAGE payload that carries none (note 12). -/
opaque Config.freeTag : Nat → Byte

/-- FREE: the request code byte of the reply to a MANAGE payload that carries none (note 12). -/
opaque Config.freeCode : Nat → Byte

end Sys2Proof
end

