-- ==== Sys2Proof/Machine/State.lean ====
section
/-! DEFINITION. State: every piece of state spec/ gives the 814, block by block (00, Block overview), the two stop types, and
`State.reset`, the machine right after a full reset has ended (R170). -/

namespace Sys2Proof

/-- One value for each division. -/
structure PerDiv (α : Type) where
  pedal : α
  great : α
  swell : α
  positive : α
  deriving DecidableEq, Repr

/-- The value of division `d`. -/
def PerDiv.get {α : Type} (v : PerDiv α) : Division → α
  | .pedal => v.pedal
  | .great => v.great
  | .swell => v.swell
  | .positive => v.positive

/-- `v` with the value of division `d` replaced. -/
def PerDiv.set {α : Type} (v : PerDiv α) (d : Division) (a : α) : PerDiv α :=
  match d with
  | .pedal => { v with pedal := a }
  | .great => { v with great := a }
  | .swell => { v with swell := a }
  | .positive => { v with positive := a }

/-- The same value for each division. -/
def PerDiv.fill {α : Type} (a : α) : PerDiv α := ⟨a, a, a, a⟩

namespace Machine

/-! ### Reasons to stop -/

/-- The 814 has no fault that stops it (INVENTORY, Faults), so there is no reason here: nobody raises a fault. -/
inductive Fault where
  deriving DecidableEq, Repr

/-- Why a command has no meaning. -/
inductive Refusal where
  /-- Raised by `exec` alone, for a command that has no meaning yet. Safe: nothing can be proved of it. -/
  | notModelled (mnemonic : String)
  deriving DecidableEq, Repr

/-! ### Step store (spec 01) -/

/-- How a step was last sounded (R9). -/
inductive Sounding where
  | notYet | sounded | late | dropped
  deriving DecidableEq, Repr

/-- The musical fields of a step (R3, R4): from onset to tie. -/
structure Musical where
  onset : Nat
  duration : Nat
  division : Division
  keys : List Key
  verses : BitVec 8
  expect : Bool
  fermata : Bool
  tie : Bool
  deriving DecidableEq, Repr

/-- A step record (section 1.2). Its number is its place in the pool; its previous and next are read off the chain (note 6). -/
structure StepRec where
  list : ListNo
  music : Musical
  deviation : Option Int
  matchCount : Nat
  sounding : Sounding
  deriving DecidableEq, Repr

/-- The step store (R1, R10): the pool, the chain of each list from first to last, the phrase lengths, and the step a STEP-NEW
has taken and not yet linked (R25). -/
structure Store where
  steps : Vector StepRec 2048
  chains : Vector (List StepNo) 64
  lengths : Vector Nat 64
  unplaced : Option StepNo
  deriving DecidableEq, Repr

/-! ### Replies and requests (spec 10) -/

/-- Result codes (section 10.2). -/
inductive Result where
  | done | busy | playing | range | emptyPool | mode | faulted | unknown
  deriving DecidableEq, Repr

/-- A reply (R175). `clearsLost` is set on a STATUS reply that carried the alerts-lost flag set and falls at every alert
discarded since its building (R186). -/
structure Reply where
  tag : Byte
  code : Byte
  result : Result
  data : List Byte
  clearsLost : Bool
  deriving DecidableEq, Repr

/-- The cause of the last full reset (R183). -/
inductive ResetCause where
  | power | line | command
  deriving DecidableEq, Repr

/-! ### List controller (spec 02) -/

/-- The controller's phase (R17). -/
inductive Phase where
  | ready | busy | busyResultPosted
  deriving DecidableEq, Repr

/-- The kinds of list command (R17). -/
inductive CmdKind where
  | stepNew | stepSet | stepMove | stepFree | listEmpty | listLength
  deriving DecidableEq, Repr

/-- The command record (R17): empty in READY. -/
structure CommandRecord where
  kind : Option CmdKind
  step : Option StepNo
  source : Option ListNo
  target : Option ListNo
  deriving DecidableEq, Repr

/-- The visits a command has still to make (R22, R25 to R30). `walk` holds the steps still to be examined, the last of the list
first; `link` the step after which the placed step goes, or none for first in the list. -/
inductive Work where
  | newWrite (step : StepNo) (m : Musical) (dest : ListNo)
  | setWrite (step : StepNo) (m : Musical) (dest : ListNo)
  | walk (step : StepNo) (onset : Nat) (dest : ListNo) (toExamine : List StepNo)
  | link (step : StepNo) (onset : Nat) (dest : ListNo) (after : Option StepNo)
  | free (step : StepNo)
  | empty (list : ListNo) (moved : Nat)
  | length (list : ListNo) (ticks : Nat)
  deriving DecidableEq, Repr

/-- The list controller (R17). -/
structure Controller where
  phase : Phase
  cmd : CommandRecord
  work : Option Work
  tag : Byte
  reply : Option Reply
  lastVisit : PartTime
  deriving DecidableEq, Repr

/-! ### Plan, registrations, stops, divisions and profiles (spec 03, 05, 07, 10) -/

/-- How an entry begins (section 3.1). -/
inductive StartKind where
  | continue_ | organLed | choirLed
  deriving DecidableEq, Repr

/-- A plan entry (R36); `registration` none is KEEP, `tempo` none is absent. -/
structure PlanEntry where
  list : ListNo
  verse : Fin 8
  registration : Option SetNo
  start : StartKind
  gap : Nat
  leadIn : Nat
  hold : Nat
  transposition : Int
  mask : BitVec 4
  minChannels : Nat
  tempo : Option Nat
  deriving DecidableEq, Repr

/-- A stop-table entry (R50). -/
structure StopEntry where
  division : Division
  speechLead : Nat
  bleed : Nat
  deriving DecidableEq, Repr

/-- What entering LOST does (R112). -/
inductive LostAction where
  | coast | finish
  deriving DecidableEq, Repr

/-- The follow profile (R179). -/
structure FollowProfile where
  w : Nat
  kp : Nat
  j : Nat
  ki : Nat
  dmax : Nat
  pmin : Nat
  pmax : Nat
  warning : Nat
  lostAction : LostAction
  deriving DecidableEq, Repr

/-- The pickup profile (R96). -/
structure PickupProfile where
  span : Nat
  threshold : Nat
  gate : Nat
  refractory : Nat
  boost : Nat
  cutoffLevel : Nat
  cutoffHold : Nat
  latency : Nat
  deriving DecidableEq, Repr

/-- The tables: plan, registrations, stops, divisions, the three profiles. A registration set is a set of stop numbers, stop `n`
in bit `n` as stop images have it (spec 11). -/
structure Tables where
  plan : Vector PlanEntry 64
  planSize : Nat
  sets : Vector (BitVec 48) 16
  stops : Vector StopEntry 48
  chamber : PerDiv Nat
  follow : FollowProfile
  pickup : PickupProfile
  gap : Nat
  deriving DecidableEq, Repr

/-! ### Onset detector (spec 05) -/

/-- A channel is ARMED, or REFRACTORY to an end (R87). -/
inductive ChanState where
  | armed
  | refractory (endAt : PartTime)
  deriving DecidableEq, Repr

/-- One pickup channel: its level history, newest first, empty or 9 long (R83), and its state. -/
structure Channel where
  history : List Nat
  state : ChanState
  deriving DecidableEq, Repr

/-- An open gather (R90). -/
structure Gather where
  opened : PartTime
  mask : BitVec 4
  channels : BitVec 4
  time : PartTime
  strength : Nat
  deriving DecidableEq, Repr

/-- The cutoff state (R94). -/
inductive CutoffState where
  | quiet | sounding
  | falling (since : PartTime)
  deriving DecidableEq, Repr

/-- A choir onset (R91); its count is the number of channel bits set. -/
structure Onset where
  time : PartTime
  strength : Nat
  channels : BitVec 4
  deriving DecidableEq, Repr

/-- A cutoff as it is handed to the follower (R95): the arrival time of the frame that completed the hold, and the below-since time
at which the silence began. -/
structure Cutoff where
  completed : PartTime
  belowSince : PartTime
  deriving DecidableEq, Repr

/-- The last-onset record (R93). -/
structure LastOnset where
  onset : Onset
  delivered : PartTime
  qualified : Bool
  deriving DecidableEq, Repr

/-- The onset detector: the latched channel count (R81), the stale flag and timer (R84), the held sequence number (R82), the
channels, the gather, the cutoff state, boost-until (R89) and the last-onset record. -/
structure Detector where
  fourChannels : Bool
  fresh : Bool
  lastArrival : Option PartTime
  seq : Option Byte
  channels : Vector Channel 4
  gather : Option Gather
  cutoff : CutoffState
  boostUntil : Option PartTime
  lastOnset : Option LastOnset
  deriving DecidableEq, Repr

/-! ### Beat clock (spec 04) -/

/-- The clock state (R56). -/
inductive ClockState where
  | stopped | moving | held
  deriving DecidableEq, Repr

/-- The beat clock (R55). -/
structure Clock where
  state : ClockState
  t0 : PartTime
  x0 : Pos
  period : Nat
  pendingTempo : Option Nat
  highest : Pos
  beats : BitVec 32
  rate : Nat
  deriving DecidableEq, Repr

/-! ### Follower (spec 06) -/

/-- The play state (R99). -/
inductive Play where
  | idle | waiting | gap | running | holding | ending
  deriving DecidableEq, Repr

/-- The mode (R123). -/
inductive Mode where
  | off | rehearse | follow | steady
  deriving DecidableEq, Repr

/-- The finish state (R120). -/
inductive Finish where
  | none | held | pending
  deriving DecidableEq, Repr

/-- The confidence state (R110). -/
inductive Conf where
  | locked | doubtful | lost
  deriving DecidableEq, Repr

/-- The kinds of stop point (R55). -/
inductive StopKind where
  | hold | wait | end_
  deriving DecidableEq, Repr

/-- A stop point: its position, its kind, and when it was reached (R99). -/
structure StopPoint where
  pos : Pos
  kind : StopKind
  reachedAt : Option PartTime
  deriving DecidableEq, Repr

/-- An expected point in the window list (R99), with the W read when it was added (R179). -/
structure Point where
  pos : Pos
  width : Nat
  entry : EntryNo
  steps : List StepNo
  deriving DecidableEq, Repr

/-- The record of an engaged next entry: its start as applied and its origin, fixed at the engagement (R102). -/
structure Engaged where
  start : StartKind
  origin : Pos
  deriving DecidableEq, Repr

/-- The follower (R99). The point walks hold the onset from which the points of the current and of the engaged next entry are
still to be read. `heldOnsets` and `checkHeld` are the work that waits for a list to join the lock set (R33, R101). -/
structure Follower where
  play : Play
  mode : Mode
  pendingMode : Option Mode
  current : Option EntryNo
  origin : Pos
  next : Option Engaged
  finish : Finish
  stop : Option StopPoint
  timer : Option PartTime
  window : List Point
  pointsCurrent : Option Nat
  pointsNext : Option Nat
  released : List Pos
  counter : Nat
  conf : Conf
  run : Nat
  lockSet : List ListNo
  heldOnsets : List Onset
  checkHeld : Bool
  deriving DecidableEq, Repr

/-! ### Scheduler (spec 07) -/

/-- A press or a release (R128). -/
inductive ActKind where
  | press | release
  deriving DecidableEq, Repr

/-- A key held over by a tie, with the step and the entry of the release it was taken from (R133). -/
structure HeldKey where
  key : Key
  step : StepNo
  entry : EntryNo
  deriving DecidableEq, Repr

/-- An action of an issue queue (R128). `relPos` is the position of the step's release (R137 needs it when a tie has removed the
release). `waitOn` is, of a press found waiting for the gap, the last key-up it waits on (R138). A release carries a copy of the
held-over keys of its press (R135, R137; note 16). -/
structure Action where
  kind : ActKind
  pos : Pos
  step : StepNo
  entry : EntryNo
  keys : List Key
  heldOver : List HeldKey
  relPos : Pos
  waitOn : Option PartTime
  deriving DecidableEq, Repr

/-- The part of a catch-up walk over one entry: the next place in its list and the place that ends it (R145). -/
structure CatchPart where
  entry : EntryNo
  place : Nat
  limit : Nat
  deriving DecidableEq, Repr

/-- A catch-up walk (R145): the position at the lift, and its parts in order. -/
structure CatchUp where
  liftPos : Pos
  parts : List CatchPart
  deriving DecidableEq, Repr

/-- A walk's wait for room (R132 step 3): the step it waits at, the entry, the division whose queue is full, and whether the walk is
that division's catch-up walk or a placement walk. -/
structure Stall where
  entry : EntryNo
  step : StepNo
  division : Division
  catchUp : Bool
  deriving DecidableEq, Repr

/-- The scheduler (R127). The playback key images are computed from the hold counts (R127). `stalled` is the one walk that waits for
room, while every walk waits (R132 step 3). -/
structure Sched where
  queues : PerDiv (List Action)
  walkCurrent : Option Nat
  walkNext : Option Nat
  catchUp : PerDiv (Option CatchUp)
  stalled : Option Stall
  holds : PerDiv (Vector Nat 61)
  keyUps : PerDiv (Vector (Option PartTime) 61)
  active : Option SetNo
  stopImage : BitVec 48
  switched : Option EntryNo
  deriving DecidableEq, Repr

/-! ### Protection unit (spec 08) -/

/-- The kinds of a latched fault (section 8.1). -/
inductive FaultKind where
  | cipher | driver
  deriving DecidableEq, Repr

/-- A LATCHED fault record (section 8.1). -/
structure FaultRec where
  kind : FaultKind
  key : Option Key
  deriving DecidableEq, Repr

/-- The protection unit (section 8.1): a record none is CLEAR. -/
structure Protection where
  faults : PerDiv (Option FaultRec)
  windLow : Bool
  escalated : Bool
  deriving DecidableEq, Repr

/-! ### Alerts (spec 10) -/

/-- How an entry began (R101). -/
inductive Manner where
  | organ | synced | fellBack | released
  deriving DecidableEq, Repr

/-- The causes of a FAULT alert (R157). -/
inductive FaultCause where
  | cipher | driver | windLow | windOk | clear
  deriving DecidableEq, Repr

/-- An alert with its contents as posted (section 10.4). -/
inductive Alert where
  | confidence (state : Conf) (counter : Nat) (time : PartTime)
  | warning (counter : Nat) (time : PartTime)
  | phrase (entry : EntryNo) (start : StartKind) (manner : Manner) (time : PartTime)
  | hold (entry : Option EntryNo) (tick : Int) (time : PartTime)
  | ended (entry : Option EntryNo) (beats : BitVec 32) (time : PartTime)
  | fault (cause : FaultCause) (d : Option Division) (key : Option Key) (latched : BitVec 4) (protection : Byte)
      (time : PartTime)
  | pickup (stale : Bool) (time : PartTime)
  | beat (beats : BitVec 32) (entry : Option EntryNo) (phraseBeat : Int) (time : PartTime)
  deriving DecidableEq, Repr

/-! ### Relay path (spec 09) -/

/-- A frame the 814 forms itself: the key frame of a division or the stop frame (R163). -/
inductive Marker where
  | keys (d : Division)
  | stops
  deriving DecidableEq, Repr

/-- An item of the downstream queue (R163). -/
inductive DownItem where
  | marker (m : Marker)
  | pass (bytes : List Byte)
  deriving DecidableEq, Repr

/-- A frame on the upstream transmit lane; `endsInReset` marks the RESET reply (R171). -/
structure UpFrame where
  bytes : List Byte
  endsInReset : Bool
  deriving DecidableEq, Repr

/-- The relay path (section 9). -/
structure Relay where
  consoleKeys : PerDiv (BitVec 64)
  consoleStops : BitVec 48
  downQueue : List DownItem
  downLane : Option (List Byte)
  forward : List (List Byte)
  slot : Option Reply
  upLane : Option UpFrame
  node : BitVec 4
  bypass : Bool
  downReceiving : Bool
  resetting : Bool
  deriving DecidableEq, Repr

/-- The input pins (spec 00, Ports and lines); the one output pin, bypass, is `Relay.bypass`. -/
structure Pins where
  nodeStraps : BitVec 4
  fourChannels : Bool
  resetLine : Bool
  deriving DecidableEq, Repr

/-- The request handler and the alert queue (section 10). A buffered request is the payload of its MANAGE frame. -/
structure Handler where
  buffer : List (List Byte)
  waiting : Option Reply
  resetTaken : Bool
  cause : ResetCause
  alerts : List Alert
  alertsLost : Bool
  deriving DecidableEq, Repr

end Machine

namespace Machine

/-- The whole part. `pending` and `freeCount` are the model's own: the commands that wait, and the counter the free values are
applied to (note 3). -/
structure State where
  partTime : PartTime
  pins : Pins
  relay : Relay
  handler : Handler
  store : Store
  ctl : Controller
  tables : Tables
  detector : Detector
  clock : Clock
  follower : Follower
  sched : Sched
  prot : Protection
  pending : List Instr
  freeCount : Nat
  deriving DecidableEq, Repr

/-! ### The values after a full reset -/

/-- A step record after a full reset (R16). -/
def StepRec.reset : StepRec :=
  { list := 0
    music := { onset := 0, duration := 1, division := .pedal, keys := [], verses := 255#8, expect := false,
               fermata := false, tie := false }
    deviation := none, matchCount := 0, sounding := .notYet }

/-- The step store after a full reset (R16): list 0 holds 0..2047 in ascending order. -/
def Store.reset : Store :=
  { steps := Vector.replicate 2048 StepRec.reset
    chains := vset (Vector.replicate 64 []) 0 (List.finRange 2048)
    lengths := Vector.replicate 64 0
    unplaced := none }

/-- The empty command record (R17). -/
def CommandRecord.empty : CommandRecord := { kind := none, step := none, source := none, target := none }

/-- The list controller after a full reset (R17, R34). -/
def Controller.reset : Controller :=
  { phase := .ready, cmd := CommandRecord.empty, work := none, tag := 0, reply := none, lastVisit := 0 }

/-- Every available channel: 0 and 1, or 0..3 (R38). -/
def availableMask (four : Bool) : BitVec 4 := if four then 15#4 else 3#4

/-- A plan entry after a full reset (section 3.1). -/
def PlanEntry.reset (four : Bool) : PlanEntry :=
  { list := 1, verse := 0, registration := none, start := .continue_, gap := 0, leadIn := 4, hold := 4, transposition := 0,
    mask := availableMask four, minChannels := 1, tempo := none }

/-- The division a stop has after a full reset: stop number divided by 12 (section 3.3). -/
def StopEntry.reset (n : Nat) : StopEntry :=
  { division := if n < 12 then .pedal else if n < 24 then .great else if n < 36 then .swell else .positive
    speechLead := 0, bleed := 0 }

/-- The follow profile after a full reset (R179). -/
def FollowProfile.reset : FollowProfile :=
  { w := 24, kp := 8, j := 12, ki := 16, dmax := 8, pmin := 40000, pmax := 120000, warning := 96, lostAction := .coast }

/-- The pickup profile after a full reset (R96). -/
def PickupProfile.reset : PickupProfile :=
  { span := 4, threshold := 24, gate := 160, refractory := 6000, boost := 16, cutoffLevel := 200, cutoffHold := 8000,
    latency := 0 }

/-- The tables after a full reset (R36, R45, R50, R51, R147). -/
def Tables.reset (four : Bool) : Tables :=
  { plan := Vector.replicate 64 (PlanEntry.reset four)
    planSize := 0
    sets := Vector.replicate 16 0#48
    stops := ⟨((List.range 48).map StopEntry.reset).toArray, by simp⟩
    chamber := PerDiv.fill 0
    follow := FollowProfile.reset
    pickup := PickupProfile.reset
    gap := 3000 }

/-- The onset detector after a full reset (R97). -/
def Detector.reset (four : Bool) : Detector :=
  { fourChannels := four, fresh := false, lastArrival := none, seq := none
    channels := Vector.replicate 4 { history := [], state := .armed }
    gather := none, cutoff := .quiet, boostUntil := none, lastOnset := none }

/-- The beat clock after a full reset (R80). -/
def Clock.reset : Clock :=
  { state := .stopped, t0 := 0, x0 := 0, period := 60000, pendingTempo := none, highest := 0, beats := 0, rate := 0 }

/-- The follower after a full reset (R126). -/
def Follower.reset : Follower :=
  { play := .idle, mode := .off, pendingMode := none, current := none, origin := 0, next := none, finish := .none,
    stop := none, timer := none, window := [], pointsCurrent := none, pointsNext := none, released := [], counter := 0,
    conf := .locked, run := 0, lockSet := [], heldOnsets := [], checkHeld := false }

/-- The scheduler after a full reset (R54, R148). -/
def Sched.reset : Sched :=
  { queues := PerDiv.fill [], walkCurrent := none, walkNext := none, catchUp := PerDiv.fill none, stalled := none
    holds := PerDiv.fill (Vector.replicate 61 0), keyUps := PerDiv.fill (Vector.replicate 61 none)
    active := none, stopImage := 0, switched := none }

/-- The protection unit after a full reset (R158). -/
def Protection.reset : Protection := { faults := PerDiv.fill none, windLow := false, escalated := false }

/-- The relay path while a full reset is under way (R170, R171): everything empty, bypass asserted, no frame taken or sent. -/
def Relay.inReset (node : BitVec 4) : Relay :=
  { consoleKeys := PerDiv.fill 0, consoleStops := 0, downQueue := [], downLane := none, forward := [], slot := none,
    upLane := none, node := node, bypass := true, downReceiving := false, resetting := true }

/-- The request handler after a full reset (R173, R174, R183, R185, R186). -/
def Handler.reset (cause : ResetCause) : Handler :=
  { buffer := [], waiting := none, resetTaken := false, cause := cause, alerts := [], alertsLost := false }

/-- The part right after a full reset has ended (R170): the straps latched, part time 0, the bypass line asserted until upstream
receive is first idle. The cause POWER, node number 0 and 4 channels are DESIGN CHOICES (note 7): the spec gives each a value
only through what happened or what the straps show. -/
def State.reset : State :=
  { partTime := 0
    pins := { nodeStraps := 0, fourChannels := true, resetLine := false }
    relay := { Relay.inReset 0 with resetting := false }
    handler := Handler.reset .power
    store := Store.reset
    ctl := Controller.reset
    tables := Tables.reset true
    detector := Detector.reset true
    clock := Clock.reset
    follower := Follower.reset
    sched := Sched.reset
    prot := Protection.reset
    pending := []
    freeCount := 0 }

end Machine

end Sys2Proof
end

