-- ==== Sys2Proof/Machine/Ops.lean ====
section
/-! DEFINITION. Named operations every block uses: replacing one block of the state, comparing part times (spec 00), reading keys
and images (R127), posting an alert (R185), marking a frame due (R163), reading the plan and the lists (R36, R10). -/

namespace Sys2Proof

/-- The four divisions in order. -/
def Division.all : List Division := [.pedal, .great, .swell, .positive]

/-- The number of a division (spec 00, Units and ranges). -/
def Division.num : Division → Nat
  | .pedal => 0
  | .great => 1
  | .swell => 2
  | .positive => 3

/-- The division a number names, if it names one (spec 00, Units and ranges). -/
def Division.ofNum? : Nat → Option Division
  | 0 => some .pedal
  | 1 => some .great
  | 2 => some .swell
  | 3 => some .positive
  | _ => none

/-- The top key of a division: 31 for the Pedal, 60 for the others (R3, R42). -/
def Division.top : Division → Nat
  | .pedal => 31
  | _ => 60

namespace Machine

/-! ### One block of the state replaced -/

/-- `s` with its `partTime` replaced. -/
def State.withPartTime (s : State) (a : PartTime) : State := { s with partTime := a }

/-- `s` with its `pins` replaced. -/
def State.withPins (s : State) (a : Pins) : State := { s with pins := a }

/-- `s` with its `relay` replaced. -/
def State.withRelay (s : State) (a : Relay) : State := { s with relay := a }

/-- `s` with its `handler` replaced. -/
def State.withHandler (s : State) (a : Handler) : State := { s with handler := a }

/-- `s` with its `store` replaced. -/
def State.withStore (s : State) (a : Store) : State := { s with store := a }

/-- `s` with its `ctl` replaced. -/
def State.withCtl (s : State) (a : Controller) : State := { s with ctl := a }

/-- `s` with its `tables` replaced. -/
def State.withTables (s : State) (a : Tables) : State := { s with tables := a }

/-- `s` with its `detector` replaced. -/
def State.withDetector (s : State) (a : Detector) : State := { s with detector := a }

/-- `s` with its `clock` replaced. -/
def State.withClock (s : State) (a : Clock) : State := { s with clock := a }

/-- `s` with its `follower` replaced. -/
def State.withFollower (s : State) (a : Follower) : State := { s with follower := a }

/-- `s` with its `sched` replaced. -/
def State.withSched (s : State) (a : Sched) : State := { s with sched := a }

/-- `s` with its `prot` replaced. -/
def State.withProt (s : State) (a : Protection) : State := { s with prot := a }

/-- `s` with its `pending` replaced. -/
def State.withPending (s : State) (a : List Instr) : State := { s with pending := a }

/-- `s` with its `freeCount` replaced. -/
def State.withFreeCount (s : State) (a : Nat) : State := { s with freeCount := a }

/-! ### Time and rounding -/

/-- The difference `a - b` of two part times as a signed 32-bit number (spec 00, Comparing times). -/
def tdiff (a b : PartTime) : Int := (a - b).toInt

/-- Part time `t` is at or before `now`. -/
def due (now t : PartTime) : Bool := decide (0 ≤ tdiff now t)

/-- `t` moved on by `n` tu. -/
def after (t : PartTime) (n : Int) : PartTime := t + BitVec.ofInt 32 n

/-- The quotient rounded toward plus infinity (spec 00, Arithmetic), for a divisor above 0. -/
def ceilDiv (a b : Int) : Int := -((-a) / b)

/-- The quotient rounded half away from zero (spec 00, Arithmetic), for a divisor above 0. -/
def roundHalfAway (a b : Int) : Int :=
  a.sign * ((2 * (a.natAbs : Int) + b) / (2 * b))

/-- `x` clamped into `lo..hi`. -/
def clampInt (lo hi x : Int) : Int := max lo (min x hi)

/-- `x` clamped into `lo..hi` (R177). -/
def clampNat (lo hi x : Nat) : Nat := max lo (min x hi)

/-! ### Sets of keys and of stops -/

/-- The bit map of a list of bit numbers (spec 11: key `n` is bit `n`, stop `n` is bit `n`). -/
def bitsOf (w : Nat) : List Nat → BitVec w
  | [] => 0
  | n :: rest => BitVec.twoPow w n ||| bitsOf w rest

/-- The numbers of the bits set, ascending. -/
def membersOf {w : Nat} (b : BitVec w) : List Nat := (List.range w).filter fun n => b.getLsbD n

/-- The keys whose hold count is above 0, ascending. -/
def heldKeys (v : Vector Nat 61) : List Key := (List.finRange 61).filter fun k => decide (0 < vget v k)

/-- The playback key image of a division: the set of keys whose hold count is above 0 (R127). -/
def playImage (s : State) (d : Division) : BitVec 64 := bitsOf 64 ((heldKeys (s.sched.holds.get d)).map Fin.val)

/-- Every playback key image is empty (R124). -/
def imagesEmpty (s : State) : Bool := Division.all.all fun d => (heldKeys (s.sched.holds.get d)).isEmpty

/-! ### Alerts and markers -/

/-- A discarded alert sets the alerts-lost flag (R185), and no STATUS reply built before it may clear the flag (R186). -/
def loseAlert (s : State) : State :=
  let keep : Reply → Reply := fun r => { r with clearsLost := false }
  (s.withHandler { s.handler with alertsLost := true, waiting := s.handler.waiting.map keep }).withRelay
    { s.relay with slot := s.relay.slot.map keep }

/-- Posts an alert (R185): it enters the tail of the queue, or is discarded when 16 wait. -/
def postAlert (s : State) (a : Alert) : State :=
  if s.handler.alerts.length < Config.alertMax then
    s.withHandler { s.handler with alerts := s.handler.alerts ++ [a] }
  else loseAlert s

/-- Marks a frame due (R163): absorbed by a marker already in the queue, else a new marker at the tail. -/
def markDue (s : State) (m : Marker) : State :=
  if s.relay.downQueue.contains (.marker m) then s
  else s.withRelay { s.relay with downQueue := s.relay.downQueue ++ [.marker m] }

/-! ### The lines (R170) -/

/-- The lines are the part's own: no full reset is under way and bypass is released (R170). -/
def linesOpen (s : State) : Bool := !s.relay.resetting && !s.relay.bypass

/-- Downstream receive takes frames: it has been idle since the release of bypass (R170). -/
def receivesDown (s : State) : Bool := linesOpen s && s.relay.downReceiving

/-! ### Reading the plan and the store -/

/-- Plan entry `i` as it stands (R40). -/
def planEntry (s : State) (i : EntryNo) : PlanEntry := vget s.tables.plan i

/-- Step record `n`. -/
def stepRec (s : State) (n : StepNo) : StepRec := vget s.store.steps n

/-- The chain of list `l`, from first to last (R1). -/
def chain (s : State) (l : ListNo) : List StepNo := vget s.store.chains l

/-- The phrase length of list `l` in ticks (R11). -/
def phraseLength (s : State) (l : ListNo) : Nat := vget s.store.lengths l

/-- The count of list `l` (R10): the chain, and the step a STEP-NEW in flight has taken for it (R25). -/
def listCount (s : State) (l : ListNo) : Nat :=
  (chain s l).length + (match s.store.unplaced with
    | some n => if (stepRec s n).list = l then 1 else 0
    | none => 0)

/-- The locked flag of list `l` (R10): membership of the lock set. -/
def listLocked (s : State) (l : ListNo) : Bool := s.follower.lockSet.contains l

/-- The neighbour of `n` in a chain on the side the chain is read from: the element just before `n`. -/
def before? : List StepNo → StepNo → Option StepNo
  | a :: b :: rest, n => if b = n then some a else before? (b :: rest) n
  | _, _ => none

/-- The previous field of step `n` (R2): its neighbour before it in its list's chain, or none. -/
def previousOf (s : State) (n : StepNo) : Option StepNo := before? (chain s (stepRec s n).list) n

/-- The next field of step `n` (R2): its neighbour after it in its list's chain, or none. -/
def nextOf (s : State) (n : StepNo) : Option StepNo := before? (chain s (stepRec s n).list).reverse n

/-- Writes step record `n`. -/
def writeStep (s : State) (n : StepNo) (r : StepRec) : State :=
  s.withStore { s.store with steps := vset s.store.steps n r }

/-- A result write to step `n` (R15): made on the record as it stands, discarded when the step is in the free list. -/
def writeResult (s : State) (n : StepNo) (f : StepRec → StepRec) : State :=
  if (stepRec s n).list = 0 then s else writeStep s n (f (stepRec s n))

/-- Writes the sounding of step `n` (R9, R15). -/
def writeSounding (s : State) (n : StepNo) (v : Sounding) : State := writeResult s n fun r => { r with sounding := v }

/-- The lists involved in the command in flight (R21): its source and its target. -/
def involvedLists (s : State) : List ListNo := s.ctl.cmd.source.toList ++ s.ctl.cmd.target.toList

/-- List `l` is involved in the command in flight (R21). -/
def involved (s : State) (l : ListNo) : Bool := (involvedLists s).contains l

end Machine

end Sys2Proof
end

