-- ==== Sys2Proof/Machine/Flags.lean ====
section
/-! DEFINITION. Conditions worked out from the state whenever they are asked for: overrides (R149), withdrawn stops and the
playback stop image (R46), merging (R164), leads (R52, R53), the applicable mask (R92), and the status bytes (spec 11). -/

namespace Sys2Proof

namespace Machine

/-! ### Protection (section 8.1) -/

/-- Division `d`'s fault record is LATCHED. -/
def latched (s : State) (d : Division) : Bool := (s.prot.faults.get d).isSome

/-- Division `d` is under override: its record is LATCHED or the wind is LOW (R149). -/
def overridden (s : State) (d : Division) : Bool := latched s d || s.prot.windLow

/-- Some division's record is LATCHED. -/
def anyLatched (s : State) : Bool := Division.all.any (latched s)

/-- A set of divisions, division `d` in bit `d`. -/
def divisionSet (p : Division → Bool) : BitVec 4 := bitsOf 4 ((Division.all.filter p).map Division.num)

/-- The divisions whose records are LATCHED (R157). -/
def latchedSet (s : State) : BitVec 4 := divisionSet (latched s)

/-- The divisions under override (R149). -/
def overrideSet (s : State) : BitVec 4 := divisionSet (overridden s)

/-- The protection byte: overrides in bits 0..3, wind LOW in bit 4, escalated in bit 5 (spec 11). -/
def protectionByte (s : State) : Byte :=
  BitVec.ofNat 8 ((overrideSet s).toNat + (if s.prot.windLow then 16 else 0) + (if s.prot.escalated then 32 else 0))

/-! ### Stops (R46) -/

/-- Stop-table entry of stop number `n`; beyond 47 there is none. -/
def stopEntry? (s : State) (n : Nat) : Option StopEntry := s.tables.stops[n]?

/-- Stop `n` is withdrawn: its division is LATCHED, or the escalated flag is set (R46). -/
def withdrawn (s : State) (n : Nat) : Bool :=
  s.prot.escalated || (match stopEntry? s n with
    | some e => latched s e.division
    | none => false)

/-- The stops of a set that are not withdrawn. -/
def lessWithdrawn (s : State) (b : BitVec 48) : BitVec 48 := bitsOf 48 ((membersOf b).filter fun n => !withdrawn s n)

/-- The set of the active registration, or the empty set (R46). -/
def activeSet (s : State) : BitVec 48 :=
  match s.sched.active with
  | some k => vget s.tables.sets k
  | none => 0

/-- The playback stop image as it is to be formed: the active set less the withdrawn stops (R46). -/
def formedImage (s : State) : BitVec 48 := lessWithdrawn s (activeSet s)

/-- Forms the playback stop image afresh and marks a stop frame due when it changed (R46). -/
def reformStops (s : State) : State :=
  let image := formedImage s
  let s1 := s.withSched { s.sched with stopImage := image }
  if image = s.sched.stopImage then s1 else markDue s1 .stops

/-- Makes `k`, or none, the active registration and forms the image afresh (R47, R48, R54). -/
def setActive (s : State) (k : Option SetNo) : State := reformStops (s.withSched { s.sched with active := k })

/-! ### Leads (R52, R53) and bleed (R50) -/

/-- The stops of division `d` in a set. -/
def stopsOf (s : State) (d : Division) (b : BitVec 48) : List StopEntry :=
  ((membersOf b).filterMap (stopEntry? s)).filter fun e => decide (e.division = d)

/-- The registration entry `i` is played with: its own set, or the active one under KEEP (R52). -/
def entrySet (s : State) (i : EntryNo) : BitVec 48 :=
  match (planEntry s i).registration with
  | some k => vget s.tables.sets k
  | none => activeSet s

/-- The largest of a list of numbers, 0 for none. -/
def largest (l : List Nat) : Nat := l.foldl max 0

/-- The press lead of division `d` for entry `i` (R52). -/
def pressLead (s : State) (d : Division) (i : EntryNo) : Int :=
  (s.tables.chamber.get d : Int) + (largest ((stopsOf s d (lessWithdrawn s (entrySet s i))).map StopEntry.speechLead) : Nat)

/-- The release lead of division `d`: its chamber delay (R53). -/
def releaseLead (s : State) (d : Division) : Int := (s.tables.chamber.get d : Int)

/-- The largest bleed length among the stops of `d` in the playback stop image (R50, R89). -/
def bleedLength (s : State) (d : Division) : Nat := largest ((stopsOf s d s.sched.stopImage).map StopEntry.bleed)

/-! ### Merging (R164) -/

/-- The mode merges playback images into frames: FOLLOW and STEADY do (R164). -/
def merges : Mode → Bool
  | .follow => true
  | .steady => true
  | _ => false

/-! ### Channels (R38, R92) -/

/-- How many channels the pickup supplies (R81). -/
def channelCount (s : State) : Nat := if s.detector.fourChannels then 4 else 2

/-- The available channels (R38). -/
def available (s : State) : BitVec 4 := availableMask s.detector.fourChannels

/-- The number of channels in a set. -/
def channelsIn (b : BitVec 4) : Nat := (membersOf b).length

/-- The applicable mask (R92): the current entry's, or every available channel while IDLE. -/
def applicableMask (s : State) : BitVec 4 :=
  match s.follower.play, s.follower.current with
  | .idle, _ => available s
  | _, some i => (planEntry s i).mask
  | _, none => available s

/-- The minimum channels in force (R92). -/
def minimumInForce (s : State) : Nat :=
  match s.follower.play, s.follower.current with
  | .idle, _ => 1
  | _, some i => (planEntry s i).minChannels
  | _, none => 1

/-- An onset is qualified under the minimum in force (R92). -/
def qualified (s : State) (o : Onset) : Bool := decide (minimumInForce s ≤ channelsIn o.channels)

/-! ### Codes (spec 11) -/

def Mode.code : Mode → Nat
  | .off => 0
  | .rehearse => 1
  | .follow => 2
  | .steady => 3

def Mode.ofCode? : Nat → Option Mode
  | 0 => some .off
  | 1 => some .rehearse
  | 2 => some .follow
  | 3 => some .steady
  | _ => none

def Play.code : Play → Nat
  | .idle => 0
  | .waiting => 1
  | .gap => 2
  | .running => 3
  | .holding => 4
  | .ending => 5

def ClockState.code : ClockState → Nat
  | .stopped => 0
  | .moving => 1
  | .held => 2

def Conf.code : Conf → Nat
  | .locked => 0
  | .doubtful => 1
  | .lost => 2

def Finish.code : Finish → Nat
  | .none => 0
  | .held => 1
  | .pending => 2

def Phase.code : Phase → Nat
  | .ready => 0
  | .busy => 1
  | .busyResultPosted => 2

def ResetCause.code : ResetCause → Nat
  | .power => 1
  | .line => 2
  | .command => 3

def Sounding.code : Sounding → Nat
  | .notYet => 0
  | .sounded => 1
  | .late => 2
  | .dropped => 3

def StartKind.code : StartKind → Nat
  | .continue_ => 0
  | .organLed => 1
  | .choirLed => 2

def StartKind.ofCode? : Nat → Option StartKind
  | 0 => some .continue_
  | 1 => some .organLed
  | 2 => some .choirLed
  | _ => none

def Manner.code : Manner → Nat
  | .organ => 0
  | .synced => 1
  | .fellBack => 2
  | .released => 3

def FaultKind.code : FaultKind → Nat
  | .cipher => 1
  | .driver => 2

def FaultCause.code : FaultCause → Nat
  | .cipher => 1
  | .driver => 2
  | .windLow => 3
  | .windOk => 4
  | .clear => 5

def LostAction.code : LostAction → Nat
  | .coast => 0
  | .finish => 1

def LostAction.ofCode? : Nat → Option LostAction
  | 0 => some .coast
  | 1 => some .finish
  | _ => none

def Result.code : Result → Nat
  | .done => 0
  | .busy => 1
  | .playing => 2
  | .range => 3
  | .emptyPool => 4
  | .mode => 5
  | .faulted => 6
  | .unknown => 7

/-- The request code a command in flight is shown by in STATUS (spec 11). -/
def CmdKind.code : CmdKind → Nat
  | .stepNew => 32
  | .stepSet => 33
  | .stepMove => 34
  | .stepFree => 35
  | .listEmpty => 36
  | .listLength => 37

/-- The mode byte: the mode in bits 0..3, the pending mode in bits 4..7 with 0 for none (spec 11). -/
def modeByte (s : State) : Nat := s.follower.mode.code + 16 * ((s.follower.pendingMode.map Mode.code).getD 0)

end Machine

end Sys2Proof
end

