-- ==== Sys2Proof/Machine/Clock.lean ====
section
/-! DEFINITION. The beat clock (spec 04): position and due time, crossing beat boundaries, the re-anchor, the arithmetic of a
correction. Nothing here tells the follower that a stop point was reached: the follower looks (`settle`, Machine/Follower.lean). -/

namespace Sys2Proof

namespace Machine

/-! ### Position and due time (section 4.2) -/

/-- The position formula of R57 at part time `t`, not cut at the stop point. -/
def rawAt (c : Clock) (t : PartTime) : Pos := c.x0 + tdiff t c.t0 * Config.beat / (c.period : Int)

/-- A position cut at the stop point (R57). -/
def cutAt (st : Option StopPoint) (x : Pos) : Pos :=
  match st with
  | some p => min x p.pos
  | none => x

/-- The position now (R56): in STOPPED and HELD the anchor position, in MOVING the formula cut at the stop point. -/
def position (s : State) : Pos :=
  match s.clock.state with
  | .moving => cutAt s.follower.stop (rawAt s.clock s.partTime)
  | _ => s.clock.x0

/-- The position at an onset time (R57): not cut in MOVING, the stop point in HELD. -/
def onsetPosition (s : State) (t : PartTime) : Pos :=
  match s.clock.state with
  | .moving => rawAt s.clock t
  | _ => s.clock.x0

/-- How far ahead of the present part time the formula of R58 puts position `x`, in tu, below X0 as above it (R134). In HELD the
anchor time is read as the present. -/
def timeTo (s : State) (x : Pos) : Int :=
  let span := ceilDiv ((x - s.clock.x0) * (s.clock.period : Int)) Config.beat
  match s.clock.state with
  | .moving => tdiff s.clock.t0 s.partTime + span
  | _ => span

/-- A stop point keeps position `x` not yet due (table of R58). -/
def blockedBy (st : Option StopPoint) (x : Pos) : Bool :=
  match st with
  | some p => decide (p.pos < x) || (decide (x = p.pos) && decide (p.kind ≠ .end_))
  | none => false

/-- The due time of position `x`, as tu from now, when the clock gives one (R58). -/
def dueIn (s : State) (x : Pos) : Option Int :=
  match s.clock.state with
  | .stopped => none
  | _ => if blockedBy s.follower.stop x then none else some (timeTo s x)

/-- The part time at which the running position reaches `x` by the formula (R58). -/
def reachTime (s : State) (x : Pos) : PartTime := after s.partTime (timeTo s x)

/-! ### Periods (section 4.4) -/

/-- A period clamped into [Pmin, Pmax] as they stand (R62). -/
def clampPeriod (s : State) (p : Nat) : Nat := clampNat s.tables.follow.pmin s.tables.follow.pmax p

/-! ### Beats (section 4.7) -/

/-- The number of whole beats from the origin to `x`, rounded down: the last boundary at or below `x` (R73). -/
def beatIndex (s : State) (x : Pos) : Int := (x - s.follower.origin) / Config.beat

/-- How many boundaries a rise of the highest position to `x` crosses (R74). -/
def crossings (s : State) (x : Pos) : Nat :=
  if s.clock.highest < x then (beatIndex s x - beatIndex s s.clock.highest).toNat else 0

/-- The lowest boundary of the current grid above the highest position reached (R74). When the grid moves while the clock is MOVING, the
highest position stays at its last recorded rise, so a boundary of the new grid may already lie behind the position (note 28). -/
def nextBoundary (s : State) : Pos := s.follower.origin + (beatIndex s s.clock.highest + 1) * Config.beat

/-- The report rate divides one of the beat counts a rise of `n` beats passes through (R75). -/
def beatReported (s : State) (n : Nat) : Bool :=
  decide (s.clock.rate ≠ 0) &&
    ((List.range n).any fun k => decide ((s.clock.beats + BitVec.ofNat 32 (k + 1)).toNat % s.clock.rate = 0))

/-- Raises the highest position reached to `x`, counts the boundaries crossed, and posts at most one BEAT alert with part time `t`
(R74, R75). -/
def raiseHighest (s : State) (x : Pos) (t : PartTime) : State :=
  let n := crossings s x
  let count := s.clock.beats + BitVec.ofNat 32 n
  let s1 := s.withClock { s.clock with highest := max s.clock.highest x, beats := count }
  if beatReported s n then postAlert s1 (.beat count s.follower.current (beatIndex s x) t) else s1

/-- Applies the pending tempo by a further re-anchor now, at the position `x` the clock stands at (R65); nothing when none is pending.
The position does not move by it, so steps 4 and 5 of R61 find nothing to do. -/
def applyPendingTempo (s : State) (x : Pos) : State :=
  match s.clock.pendingTempo with
  | some p => s.withClock { s.clock with t0 := s.partTime, x0 := x, period := clampPeriod s p, pendingTempo := none }
  | none => s

/-- A rise of the highest position to `x` at part time `t`, the clock standing at `now`; the pending tempo is applied there when the
rise crosses a boundary (R74, R65). -/
def riseTo (s : State) (x : Pos) (t : PartTime) (now : Pos) : State :=
  let s1 := raiseHighest s x t
  if crossings s x = 0 then s1 else applyPendingTempo s1 now

/-! ### The re-anchor (section 4.3) -/

/-- Steps 2 to 4 of R61: installs the anchor and the period; HELD at the stop point when the new line puts the present position
at or beyond it, else MOVING. -/
def installAnchor (s : State) (ta : PartTime) (xa : Pos) (p : Nat) : State :=
  let c : Clock := { s.clock with t0 := ta, x0 := xa, period := p }
  match s.follower.stop with
  | some st =>
    if st.pos ≤ rawAt c s.partTime then s.withClock { c with t0 := s.partTime, x0 := st.pos, state := .held }
    else s.withClock { c with state := .moving }
  | none => s.withClock { c with state := .moving }

/-- The re-anchor of R61, taken now. -/
def reanchor (s : State) (ta : PartTime) (xa : Pos) (p : Nat) : State :=
  let old := position s
  let s1 := installAnchor s ta xa p
  let new := position s1
  riseTo s1 (max old new) s.partTime new

/-- A period change (R61): a re-anchor at `(t, X(t))`; in STOPPED the anchor is `(t, X0)`, the clock stays STOPPED (R64), and the
highest position, which no run leaves below X0 there, is not raised (note 36). -/
def changePeriod (s : State) (p : Nat) : State :=
  match s.clock.state with
  | .stopped => s.withClock { s.clock with t0 := s.partTime, period := p }
  | _ => reanchor s s.partTime (position s) p

/-- The rise of the re-anchor that stops play: the highest position rises to the position now, and each boundary passed is crossed now
(R79, R61 step 5, R74). In STOPPED no boundary is crossed (R56, R75). -/
def riseAtStop (s : State) : State :=
  match s.clock.state with
  | .stopped => s
  | _ => raiseHighest s (position s) s.partTime

/-- The clock is stopped by a re-anchor at its present position (R79): the highest position rises to it first (note 29), then the pending
tempo is dropped unapplied and `zero` sets the beat count to 0. -/
def stopClock (s : State) (zero : Bool) : State :=
  let s1 := riseAtStop s
  s1.withClock { s1.clock with
    state := .stopped, t0 := s.partTime, x0 := position s, pendingTempo := none
    beats := if zero then 0 else s1.clock.beats }

/-! ### Corrections (section 4.6) -/

/-- The phase part `c` of R70. -/
def phasePart (f : FollowProfile) (e : Int) : Int :=
  clampInt (-((f.j : Int) * Config.tick)) ((f.j : Int) * Config.tick) (roundHalfAway (e * (f.kp : Int)) 16)

/-- The clamped `ΔP` of R70 at period `p`. -/
def periodPart (f : FollowProfile) (p : Nat) (e : Int) : Int :=
  let limit : Int := ((p * f.dmax / 256 : Nat) : Int)
  clampInt (-limit) limit (-(((p : Int) * e * (f.ki : Int)).tdiv (24576 * 64)))

/-- The new period of R70: `P + ΔP` clamped into [Pmin, Pmax], or `P` when the period part is not asked for. -/
def correctedPeriod (f : FollowProfile) (p : Nat) (e : Int) (both : Bool) : Nat :=
  if both then clampNat f.pmin f.pmax ((p : Int) + periodPart f p e).toNat else p

/-- A correction with onset time `tOn`, deviation `e`, and the period part when `both` (R70), with the backward limit of R71. In
HELD the position stays at the stop point; in STOPPED it is not made. -/
def correct (s : State) (tOn : PartTime) (e : Int) (both : Bool) : State :=
  let p := correctedPeriod s.tables.follow s.clock.period e both
  let back := position s - (s.tables.follow.j : Int) * Config.tick
  match s.clock.state with
  | .stopped => s
  | .held => reanchor s s.partTime s.clock.x0 p
  | .moving =>
    let xa := onsetPosition s tOn + phasePart s.tables.follow e
    if rawAt { s.clock with t0 := tOn, x0 := xa, period := p } s.partTime < back then reanchor s s.partTime back p
    else reanchor s tOn xa p

/-! ### Clock events -/

/-- The running position has reached the next boundary, which is not above the stop point (R74). -/
def boundaryDue (s : State) : Bool :=
  decide (s.clock.state = .moving) && decide (nextBoundary s ≤ position s)

/-- BEAT_BOUNDARY (R74, R65): the boundary is crossed at its due time; a pending tempo is applied by a re-anchor there, taken now, so
that a stop point its new line has reached holds the clock, and the highest position rises on to the position now (R61). -/
def crossBoundary (s : State) : State :=
  let b := nextBoundary s
  let s1 := raiseHighest s b (reachTime s b)
  match s.clock.pendingTempo with
  | some p => reanchor (s1.withClock { s1.clock with pendingTempo := none }) (reachTime s b) b (clampPeriod s p)
  | none => s1

/-- The renewal of R60 is due: MOVING and 2^30 tu or more since T0. -/
def renewalDue (s : State) : Bool :=
  decide (s.clock.state = .moving) && decide (Config.oldAge ≤ tdiff s.partTime s.clock.t0)

/-- ANCHOR_RENEWAL (R60): the anchor becomes the present time and position. DESIGN CHOICE: it leaves the highest position reached, since
it crosses no boundary that the position had not reached, though R74 has it rise at every re-anchor (note 47). -/
def renewAnchor (s : State) : State := s.withClock { s.clock with t0 := s.partTime, x0 := position s }

/-- The running position has reached the stop point (R68). -/
def stopDue (s : State) : Bool :=
  match s.clock.state, s.follower.stop with
  | .moving, some st => decide (st.pos ≤ rawAt s.clock s.partTime)
  | _, _ => false

/-- The clock becomes HELD at the stop point, the highest position rises to it (R68). -/
def holdClock (s : State) (x : Pos) : State :=
  let t := if s.clock.x0 ≤ x then reachTime s x else s.partTime
  riseTo (s.withClock { s.clock with state := .held, t0 := s.partTime, x0 := x }) x t x

end Machine

end Sys2Proof
end

