-- ==== Sys2Proof/Machine/Frames.lean ====
section
/-! DEFINITION. The relay frame and its check (R187, section 11.1), the tests a received frame must pass (R159), and the pickup
level frame (R81, section 11.5). -/

namespace Sys2Proof

namespace Machine

/-! ### Numbers as bytes, low byte first (spec 00, Frames and bytes) -/

/-- Byte `i` as a number; 0 beyond the end. -/
def byteAt (bs : List Byte) (i : Nat) : Nat := (bs.getD i 0).toNat

/-- Two bytes from `i` on, low byte first. -/
def wordAt (bs : List Byte) (i : Nat) : Nat := byteAt bs i + 256 * byteAt bs (i + 1)

/-- Four bytes from `i` on, low byte first. -/
def longAt (bs : List Byte) (i : Nat) : Nat := wordAt bs i + 65536 * wordAt bs (i + 2)

/-- A number as one byte. -/
def out8 (n : Nat) : List Byte := [BitVec.ofNat 8 n]

/-- A number as two bytes, low byte first. -/
def out16 (n : Nat) : List Byte := [BitVec.ofNat 8 n, BitVec.ofNat 8 (n / 256)]

/-- A number as four bytes, low byte first. -/
def out32 (n : Nat) : List Byte := out16 n ++ out16 (n / 65536)

/-- A signed number as two bytes in two's complement. -/
def outInt16 (x : Int) : List Byte := out16 (BitVec.ofInt 16 x).toNat

/-- A signed number as four bytes in two's complement. -/
def outInt32 (x : Int) : List Byte := out32 (BitVec.ofInt 32 x).toNat

/-- A number as `n` bytes, low byte first. -/
def outBytes : Nat → Nat → List Byte
  | 0, _ => []
  | n + 1, x => BitVec.ofNat 8 x :: outBytes n (x / 256)

/-- A run of bytes as one number, low byte first. -/
def inBytes : List Byte → Nat
  | [] => 0
  | b :: rest => b.toNat + 256 * inBytes rest

/-! ### The check (R187) -/

/-- One shift of the check register by the polynomial x^16 + x^12 + x^5 + 1. -/
def crcShift (r : BitVec 16) : BitVec 16 := if r.msb then (r <<< 1) ^^^ 0x1021#16 else r <<< 1

/-- One byte, most significant bit first, into the check register. -/
def crcByte (r : BitVec 16) (b : Byte) : BitVec 16 :=
  let r0 := r ^^^ ((b.zeroExtend 16) <<< 8)
  crcShift (crcShift (crcShift (crcShift (crcShift (crcShift (crcShift (crcShift r0)))))))

/-- The check of a run of bytes: the register starts at all ones and is not inverted (R187). -/
def crc (bs : List Byte) : BitVec 16 := bs.foldl crcByte 0xFFFF#16

/-! ### Relay frames (section 11.1) -/

/-- Frame kinds (section 11.1). -/
def kindKeys : Nat := 1
def kindStops : Nat := 2
def kindChest : Nat := 3
def kindManage : Nat := 4
def kindReply : Nat := 5
def kindAlert : Nat := 6

/-- A frame that has passed the tests of its header and check. -/
structure Frame where
  kind : Nat
  addr : Nat
  payload : List Byte
  deriving DecidableEq, Repr

/-- The bytes of a frame the 814 forms, with its check (R187). -/
def formFrame (kind addr : Nat) (payload : List Byte) : List Byte :=
  let body := out8 kind ++ out8 addr ++ out8 payload.length ++ payload
  body ++ out16 (crc body).toNat

/-- The header and check tests of R159: at least a header and a check, a length of at most 60 that is the number of payload
bytes received, a check that is right, a kind that exists. -/
def readFrame (bs : List Byte) : Option Frame :=
  let n := bs.length - 5
  let body := bs.take (3 + n)
  if bs.length < 5 then none
  else if 60 < byteAt bs 2 ∨ byteAt bs 2 ≠ n then none
  else if wordAt bs (3 + n) ≠ (crc body).toNat then none
  else if byteAt bs 0 < kindKeys ∨ kindAlert < byteAt bs 0 then none
  else some { kind := byteAt bs 0, addr := byteAt bs 1, payload := (bs.drop 3).take n }

/-- The key image of a KEYS payload, key `n` in bit `n` (section 11.1). -/
def imageOfPayload (p : List Byte) : BitVec 64 := BitVec.ofNat 64 (inBytes p)

/-- The stop image of a STOPS payload, stop `n` in bit `n` (section 11.1). -/
def stopsOfPayload (p : List Byte) : BitVec 48 := BitVec.ofNat 48 (inBytes p)

/-- A key image names no key above the division's top key (R159). -/
def imageInRange (d : Division) (b : BitVec 64) : Bool := decide (b.toNat < 2 ^ (d.top + 1))

/-- The payload tests of R159 for upstream receive, which carries KEYS, STOPS and MANAGE. -/
def fitsUpstream (f : Frame) : Bool :=
  if f.kind = kindKeys then
    match Division.ofNum? f.addr with
    | some d => decide (f.payload.length = 8) && imageInRange d (imageOfPayload f.payload)
    | none => false
  else if f.kind = kindStops then decide (f.addr = 0) && decide (f.payload.length = 6)
  else decide (f.kind = kindManage)

/-- The payload tests of R159 for downstream receive, which carries CHEST, REPLY and ALERT. -/
def fitsDownstream (f : Frame) : Bool :=
  if f.kind = kindChest then decide (f.payload.length = 2)
  else decide (f.kind = kindReply) || decide (f.kind = kindAlert)

/-- A frame of kind `k` taken from upstream receive, when it passes R159. -/
def takeUpstream (bs : List Byte) (k : Nat) : Option Frame :=
  (readFrame bs).filter fun f => fitsUpstream f && decide (f.kind = k)

/-- A frame of kind `k` taken from downstream receive, when it passes R159. -/
def takeDownstream (bs : List Byte) (k : Nat) : Option Frame :=
  (readFrame bs).filter fun f => fitsDownstream f && decide (f.kind = k)

/-! ### The pickup level frame (R81, section 11.5) -/

/-- The levels of a level frame of `n` channels. -/
def levelsAt (bs : List Byte) (n : Nat) : List Nat := (List.range n).map fun c => wordAt bs (1 + 2 * c)

/-- The first three conditions of R81: right length, right check, every level within 0..479. Answers the sequence number and
the levels. -/
def readLevels (four : Bool) (bs : List Byte) : Option (Byte × List Nat) :=
  let n := if four then 4 else 2
  let body := bs.take (1 + 2 * n)
  if bs.length ≠ 3 + 2 * n then none
  else if wordAt bs (1 + 2 * n) ≠ (crc body).toNat then none
  else if (levelsAt bs n).all fun l => decide (l ≤ 479) then some (bs.getD 0 0, levelsAt bs n)
  else none

end Machine

end Sys2Proof
end

