-- ==== Sys2Proof/Machine/Operands.lean ====
section
/-! DEFINITION. The operands of every request (R188, section 11.2): which argument runs fit, how the fields are read, and the
records replies and alerts carry (sections 11.2 to 11.4). -/

namespace Sys2Proof

namespace Machine

/-! ### Request codes (section 11.2) -/

/-- The requests, as the handler tells them apart (section 11.2). -/
inductive Req where
  | stopPut | stopGet | divPut | divGet | regPut | regGet | planPut | planGet | planSize | followPut | followGet
  | pickupPut | pickupGet | soundPut | soundGet | stepNew | stepSet | stepMove | stepFree | listEmpty | listLength
  | stepGet | listGet | mode | start | finish | halt | release | tempo | regNow | reportRate | faultClear | status
  | restart | reset
  deriving DecidableEq, Repr

/-- The request a code names, if it names one (section 11.2). -/
def Req.ofCode? : Nat → Option Req
  | 1 => some .stopPut
  | 2 => some .stopGet
  | 3 => some .divPut
  | 4 => some .divGet
  | 5 => some .regPut
  | 6 => some .regGet
  | 7 => some .planPut
  | 8 => some .planGet
  | 9 => some .planSize
  | 10 => some .followPut
  | 11 => some .followGet
  | 12 => some .pickupPut
  | 13 => some .pickupGet
  | 14 => some .soundPut
  | 15 => some .soundGet
  | 32 => some .stepNew
  | 33 => some .stepSet
  | 34 => some .stepMove
  | 35 => some .stepFree
  | 36 => some .listEmpty
  | 37 => some .listLength
  | 38 => some .stepGet
  | 39 => some .listGet
  | 64 => some .mode
  | 65 => some .start
  | 66 => some .finish
  | 67 => some .halt
  | 68 => some .release
  | 69 => some .tempo
  | 70 => some .regNow
  | 71 => some .reportRate
  | 96 => some .faultClear
  | 112 => some .status
  | 113 => some .restart
  | 114 => some .reset
  | _ => none

/-- The length of an argument run that holds musical fields from byte `base` on: the mask byte is counted when the flags byte
marks it given, and one byte for each key of the key count (R188). -/
def musicalLength (base : Nat) (args : List Byte) : Nat :=
  base + 7 + (if (byteAt args (base + 5)).testBit 3 then 1 else 0) + byteAt args (base + 6)

/-- An argument run fits a request (R188, table of section 11.2). -/
def Req.fits (r : Req) (args : List Byte) : Bool :=
  let n := args.length
  match r with
  | .stopPut => decide (n = 6)
  | .stopGet => decide (n = 1)
  | .divPut => decide (n = 3)
  | .divGet => decide (n = 1)
  | .regPut => decide (2 ≤ n) && decide (n = 2 + byteAt args 1)
  | .regGet => decide (n = 1)
  | .planPut => decide (n = 16)
  | .planGet => decide (n = 1)
  | .planSize => decide (n = 1)
  | .followPut => decide (n = 15)
  | .followGet => decide (n = 0)
  | .pickupPut => decide (n = 13)
  | .pickupGet => decide (n = 0)
  | .soundPut => decide (n = 2)
  | .soundGet => decide (n = 0)
  | .stepNew => decide (8 ≤ n) && decide (n = musicalLength 1 args)
  | .stepSet => decide (9 ≤ n) && decide (n = musicalLength 2 args)
  | .stepMove => decide (n = 3)
  | .stepFree => decide (n = 2)
  | .listEmpty => decide (n = 1)
  | .listLength => decide (n = 3)
  | .stepGet => decide (n = 2)
  | .listGet => decide (n = 3)
  | .mode => decide (n = 1)
  | .start => decide (n = 0) || decide (n = 4)
  | .finish => decide (n = 0)
  | .halt => decide (n = 0)
  | .release => decide (n = 0)
  | .tempo => decide (n = 5)
  | .regNow => decide (n = 1)
  | .reportRate => decide (n = 1)
  | .faultClear => decide (n = 1)
  | .status => decide (n = 0)
  | .restart => decide (n = 0)
  | .reset => decide (n = 0)

/-- The request and the arguments a payload holds, when its code names a request and its arguments fit (R176). -/
def readRequest (payload : List Byte) : Option (Req × List Byte) :=
  match payload with
  | _ :: code :: args =>
    match Req.ofCode? code.toNat with
    | some r => if r.fits args then some (r, args) else none
    | none => none
  | _ => none

/-- The timing byte of a TEMPO is next beat (section 11.2). -/
def isNextBeat (args : List Byte) : Bool := decide (byteAt args 0 = 1)

/-- The row of the table that takes the request a payload holds (note 11 for TEMPO). -/
def requestRow (payload : List Byte) : Instr :=
  match readRequest payload with
  | none => .unknownRequest
  | some (r, args) =>
    match r with
    | .stopPut => .stopPut
    | .stopGet => .stopGet
    | .divPut => .divPut
    | .divGet => .divGet
    | .regPut => .regPut
    | .regGet => .regGet
    | .planPut => .planPut
    | .planGet => .planGet
    | .planSize => .planSize
    | .followPut => .followPut
    | .followGet => .followGet
    | .pickupPut => .pickupPut
    | .pickupGet => .pickupGet
    | .soundPut => .soundPut
    | .soundGet => .soundGet
    | .stepNew => .stepNew
    | .stepSet => .stepSet
    | .stepMove => .stepMove
    | .stepFree => .stepFree
    | .listEmpty => .listEmpty
    | .listLength => .listLength
    | .stepGet => .stepGet
    | .listGet => .listGet
    | .mode => .mode
    | .start => .start
    | .finish => .finish
    | .halt => .halt
    | .release => .release
    | .tempo => if isNextBeat args then .tempoNextBeat else .tempoNow
    | .regNow => .regNow
    | .reportRate => .reportRate
    | .faultClear => .faultClear
    | .status => .status
    | .restart => .restart
    | .reset => .reset

/-! ### Reading fields -/

/-- The step number of two bytes, or none above 2047. -/
def stepNo? (n : Nat) : Option StepNo := if h : n < 2048 then some ⟨n, h⟩ else none

/-- The list number of a byte, or none above 63. -/
def listNo? (n : Nat) : Option ListNo := if h : n < 64 then some ⟨n, h⟩ else none

/-- A phrase list number: 1..63. -/
def phraseList? (n : Nat) : Option ListNo := (listNo? n).filter fun l => decide (l ≠ 0)

/-- A plan entry index: 0..63. -/
def entryNo? (n : Nat) : Option EntryNo := if h : n < 64 then some ⟨n, h⟩ else none

/-- A registration set number: 0..15. -/
def setNo? (n : Nat) : Option SetNo := if h : n < 16 then some ⟨n, h⟩ else none

/-- A set number or none, which 255 marks (R188); the outer none is a value out of range. -/
def setOrNone? (n : Nat) : Option (Option SetNo) := if n = 255 then some none else (setNo? n).map some

/-- A period field: 0 means absent (R188). -/
def period? (n : Nat) : Option Nat := if n = 0 then none else some n

/-- A key of a division (R3). -/
def key? (d : Division) (n : Nat) : Option Key := if h : n < 61 then (if n ≤ d.top then some ⟨n, h⟩ else none) else none

/-- A key list: at most 6 keys, all distinct, each within the division's range (R3). -/
def keys? (d : Division) (bs : List Byte) : Option (List Key) :=
  if 6 < bs.length then none
  else match bs.mapM fun b => key? d b.toNat with
    | some ks => if ks.Nodup then some ks else none
    | none => none

/-- The musical fields from byte `base` on, or none where R3 refuses one with RANGE. A mask left out gives all 8 verses (R4). -/
def musical? (base : Nat) (args : List Byte) : Option Musical :=
  let flags := byteAt args (base + 5)
  let given := flags.testBit 3
  let keysAt := base + 7 + (if given then 1 else 0)
  match Division.ofNum? (byteAt args (base + 4)), wordAt args base, wordAt args (base + 2) with
  | some d, onset, duration =>
    if 32767 < onset ∨ duration < 1 ∨ 16383 < duration then none
    else (keys? d (args.drop keysAt)).map fun ks =>
      { onset := onset, duration := duration, division := d, keys := ks
        verses := if given then BitVec.ofNat 8 (byteAt args (base + 7)) else 255#8
        expect := flags.testBit 0, fermata := flags.testBit 1, tie := flags.testBit 2 }
  | none, _, _ => none

/-- A plan entry from byte 1 on, or none where R37 refuses a field with RANGE; the fields R37, R38 and R39 name are clamped. -/
def planEntry? (avail : BitVec 4) (args : List Byte) : Option PlanEntry :=
  let transposition := (BitVec.ofNat 8 (byteAt args 9)).toInt
  let mask := BitVec.ofNat 4 (byteAt args 10)
  match phraseList? (byteAt args 1), setOrNone? (byteAt args 3), StartKind.ofCode? (byteAt args 4) with
  | some l, some r, some k =>
    if h : byteAt args 2 < 8 then
      if transposition < -12 ∨ 12 < transposition ∨ mask &&& avail = 0 then none
      else some
        { list := l, verse := ⟨byteAt args 2, h⟩, registration := r, start := k
          gap := min (wordAt args 5) 384
          leadIn := clampNat 1 16 (byteAt args 7), hold := clampNat 1 16 (byteAt args 8)
          transposition := transposition, mask := mask
          minChannels := clampNat 1 (channelsIn (mask &&& avail)) (byteAt args 11)
          tempo := (period? (longAt args 12)).map (clampNat 30000 200000) }
    else none
  | _, _, _ => none

/-- The follow profile of FOLLOW-PUT with every numeric field clamped; none where the lost action names none, or the clamped
Pmin exceeds the clamped Pmax (R63, R179). -/
def followProfile? (args : List Byte) : Option FollowProfile :=
  match LostAction.ofCode? (byteAt args 14) with
  | some a =>
    let p : FollowProfile :=
      { w := clampNat 4 48 (byteAt args 0), kp := clampNat 0 16 (byteAt args 1), j := clampNat 1 48 (byteAt args 2)
        ki := clampNat 0 64 (byteAt args 3), dmax := clampNat 1 32 (byteAt args 4)
        pmin := clampNat 30000 200000 (longAt args 5), pmax := clampNat 30000 200000 (longAt args 9)
        warning := clampNat 1 255 (byteAt args 13), lostAction := a }
    if p.pmax < p.pmin then none else some p
  | none => none

/-- The pickup profile of PICKUP-PUT with every value clamped (R96). -/
def pickupProfile (args : List Byte) : PickupProfile :=
  { span := clampNat 1 8 (byteAt args 0), threshold := clampNat 4 120 (byteAt args 1)
    gate := clampNat 0 479 (wordAt args 2), refractory := clampNat 1000 25000 (wordAt args 4)
    boost := clampNat 0 60 (byteAt args 6), cutoffLevel := clampNat 0 479 (wordAt args 7)
    cutoffHold := clampNat 2000 50000 (wordAt args 9), latency := clampNat 0 2000 (wordAt args 11) }

/-! ### Records of replies (section 11.2) -/

/-- A byte that names a thing, 255 for none (R188). -/
def outOpt8 (n : Option Nat) : List Byte := out8 (n.getD 255)

/-- A step number, 65,535 for none (R188). -/
def outStep (n : Option StepNo) : List Byte := out16 ((n.map Fin.val).getD 65535)

def outStopEntry (n : Nat) (e : StopEntry) : List Byte :=
  out8 n ++ out8 e.division.num ++ out16 e.speechLead ++ out16 e.bleed

/-- A registration set: number, count, stops ascending (R45). -/
def outSet (k : SetNo) (b : BitVec 48) : List Byte :=
  out8 k.val ++ out8 (membersOf b).length ++ (membersOf b).flatMap out8

def outPlanEntry (i : EntryNo) (e : PlanEntry) : List Byte :=
  out8 i.val ++ out8 e.list.val ++ out8 e.verse.val ++ outOpt8 (e.registration.map Fin.val) ++ out8 e.start.code
    ++ out16 e.gap ++ out8 e.leadIn ++ out8 e.hold ++ [BitVec.ofInt 8 e.transposition] ++ out8 e.mask.toNat
    ++ out8 e.minChannels ++ out32 (e.tempo.getD 0)

def outFollow (p : FollowProfile) : List Byte :=
  out8 p.w ++ out8 p.kp ++ out8 p.j ++ out8 p.ki ++ out8 p.dmax ++ out32 p.pmin ++ out32 p.pmax ++ out8 p.warning
    ++ out8 p.lostAction.code

def outPickup (p : PickupProfile) : List Byte :=
  out8 p.span ++ out8 p.threshold ++ out16 p.gate ++ out16 p.refractory ++ out8 p.boost ++ out16 p.cutoffLevel
    ++ out16 p.cutoffHold ++ out16 p.latency

/-- The flags byte of musical fields, with bit 3 set since a record always carries the mask (section 11.2). -/
def musicalFlags (m : Musical) : Nat :=
  (if m.expect then 1 else 0) + (if m.fermata then 2 else 0) + (if m.tie then 4 else 0) + 8

def outMusical (m : Musical) : List Byte :=
  out16 m.onset ++ out16 m.duration ++ out8 m.division.num ++ out8 (musicalFlags m) ++ out8 m.keys.length
    ++ [m.verses] ++ m.keys.flatMap fun k => out8 k.val

/-- The whole record of step `n` (STEP-GET, section 11.2). -/
def outStepRecord (s : State) (n : StepNo) : List Byte :=
  let r := stepRec s n
  out16 n.val ++ out8 r.list.val ++ outStep (previousOf s n) ++ outStep (nextOf s n) ++ outMusical r.music
    ++ outInt16 (r.deviation.getD (-32768)) ++ out8 r.matchCount ++ out8 r.sounding.code

/-- Step numbers packed two to three bytes, an odd last number in two (section 11.2). -/
def packSteps : List StepNo → List Byte
  | a :: b :: rest =>
    let x := a.val + 4096 * b.val
    [BitVec.ofNat 8 x, BitVec.ofNat 8 (x / 256), BitVec.ofNat 8 (x / 65536)] ++ packSteps rest
  | [a] => out16 a.val
  | [] => []

/-- The header of list `l` and up to 29 of its step numbers from index `i` on (LIST-GET, R15, section 11.2). The locked byte
is 1 when the list is locked and 0 when it is not (note 34). -/
def outListRun (s : State) (l : ListNo) (i : Nat) : List Byte :=
  let run := ((chain s l).drop i).take 29
  out8 l.val ++ out16 (listCount s l) ++ outStep (chain s l).head? ++ outStep (chain s l).getLast?
    ++ out16 (phraseLength s l) ++ out8 (if listLocked s l then 1 else 0) ++ out8 run.length ++ packSteps run

/-- A fault record: kind byte, then key byte (section 11.2; note 10 for the key byte of CLEAR). -/
def outFaultRec (r : Option FaultRec) : List Byte :=
  match r with
  | some f => out8 f.kind.code ++ outOpt8 (f.key.map Fin.val)
  | none => out8 0 ++ outOpt8 none

/-- The four fault records in division order. -/
def outFaults (s : State) : List Byte := Division.all.flatMap fun d => outFaultRec (s.prot.faults.get d)

/-- A part time as four bytes. -/
def outTime (t : PartTime) : List Byte := out32 t.toNat

/-- The payload of an alert: its code, then its data (section 11.4). -/
def outAlert : Alert → List Byte
  | .confidence c n t => out8 1 ++ out8 c.code ++ out8 n ++ outTime t
  | .warning n t => out8 2 ++ out8 n ++ outTime t
  | .phrase i k m t => out8 3 ++ out8 i.val ++ out8 k.code ++ out8 m.code ++ outTime t
  | .hold i x t => out8 4 ++ outOpt8 (i.map Fin.val) ++ outInt16 x ++ outTime t
  | .ended i n t => out8 5 ++ outOpt8 (i.map Fin.val) ++ out32 n.toNat ++ outTime t
  | .fault c d k l p t =>
    out8 6 ++ out8 c.code ++ outOpt8 (d.map Division.num) ++ outOpt8 (k.map Fin.val) ++ out8 l.toNat ++ [p] ++ outTime t
  | .pickup st t => out8 7 ++ out8 (if st then 1 else 0) ++ outTime t
  | .beat n i b t => out8 8 ++ out32 n.toNat ++ outOpt8 (i.map Fin.val) ++ outInt16 b ++ outTime t

/-- The payload of a reply: tag, request code, result code, data (R175, section 11.1). -/
def outReply (r : Reply) : List Byte := [r.tag, r.code] ++ out8 r.result.code ++ r.data

/-- The bytes of STATUS at offsets 23 to 40: active registration, protection unit, list controller, flags, node number
(section 11.3). -/
def outStatusBlocks (s : State) : List Byte :=
  outOpt8 (s.sched.active.map Fin.val) ++ outFaults s ++ [protectionByte s] ++ out8 s.ctl.phase.code
    ++ out8 ((s.ctl.cmd.kind.map CmdKind.code).getD 0) ++ outStep s.ctl.cmd.step
    ++ outOpt8 (s.ctl.cmd.source.map Fin.val) ++ outOpt8 (s.ctl.cmd.target.map Fin.val)
    ++ out8 ((if s.detector.fresh then 0 else 1) + (if s.handler.alertsLost then 2 else 0) + 4 * s.handler.cause.code)
    ++ out8 s.relay.node.toNat

/-- The last-onset bytes of STATUS (section 11.3): all 0 when the record is absent. -/
def outLastOnset (r : Option LastOnset) : List Byte :=
  match r with
  | some o => outTime o.onset.time ++ out8 o.onset.strength
      ++ out8 (o.onset.channels.toNat + 16 + (if o.qualified then 32 else 0)) ++ outTime o.delivered
  | none => List.replicate 10 0

/-- The status record with the phrase tick position handed in (R184, section 11.3). -/
def outStatus (s : State) (phraseTick : Int) : List Byte :=
  out8 (modeByte s) ++ out8 (s.follower.play.code + 16 * s.clock.state.code)
    ++ outOpt8 (s.follower.current.map Fin.val) ++ outInt32 phraseTick ++ out32 s.clock.period
    ++ out32 (s.clock.pendingTempo.getD 0) ++ out32 s.clock.beats.toNat ++ out8 s.clock.rate
    ++ out8 s.follower.conf.code ++ out8 s.follower.counter ++ out8 s.follower.run
    ++ outStatusBlocks s ++ outLastOnset s.detector.lastOnset ++ outTime s.partTime

end Machine

end Sys2Proof
end

