-- ==== Sys2Proof/Machine/Scheduler.lean ====
section
/-! DEFINITION. The scheduler (spec 07): reading the steps of an entry (R14, R42), the issue queues (R128, R129), the placement and
catch-up walks (R130 to R132, R145), ties (R133), due actions (R134 to R138), issue (R139, R140), the registration switch (R47,
R143), purges and stops (R144, R146). -/

namespace Sys2Proof

namespace Machine

/-! ### The steps of an entry (section 1.5) -/

/-- The steps of an entry may be read: its list is in the lock set (R33, R125). -/
def readable (s : State) (i : EntryNo) : Bool := listLocked s (planEntry s i).list

/-- Step `n` takes part in entry `i`: its mask holds the entry's verse and its onset is below the phrase length (R14). -/
def takesPart (s : State) (i : EntryNo) (n : StepNo) : Bool :=
  (stepRec s n).music.verses.getLsbD (planEntry s i).verse.val &&
    decide ((stepRec s n).music.onset < phraseLength s (planEntry s i).list)

/-- Step `n` takes part in entry `i` and is no cue step (R3, R130). -/
def keyed (s : State) (i : EntryNo) (n : StepNo) : Bool := takesPart s i n && decide ((stepRec s n).music.keys ≠ [])

/-- The chain of the entry's list. -/
def entryChain (s : State) (i : EntryNo) : List StepNo := chain s (planEntry s i).list

/-- The press position of a step in an entry of origin `o` (R14). -/
def pressPos (s : State) (o : Pos) (n : StepNo) : Pos := o + ((stepRec s n).music.onset : Int) * Config.tick

/-- The played end of a step in an entry: the lesser of onset + duration and the phrase length (R6, R14). -/
def playedEnd (s : State) (i : EntryNo) (n : StepNo) : Nat :=
  min ((stepRec s n).music.onset + (stepRec s n).music.duration) (phraseLength s (planEntry s i).list)

/-- The release position of a step in an entry of origin `o` (R14). -/
def releasePos (s : State) (i : EntryNo) (o : Pos) (n : StepNo) : Pos := o + (playedEnd s i n : Int) * Config.tick

/-- The effective key of a key of division `d` under transposition `t` (R42): one fold by 12 brings it into range. -/
def effectiveKey (d : Division) (t : Int) (k : Key) : Key :=
  let sum := (k.val : Int) + t
  Fin.ofNat 61 (if (d.top : Int) < sum then sum - 12 else if sum < 0 then sum + 12 else sum).toNat

/-- The effective key list of a step in an entry, each key once (R42). -/
def effectiveKeys (s : State) (i : EntryNo) (n : StepNo) : List Key :=
  (((stepRec s n).music.keys).map (effectiveKey (stepRec s n).music.division (planEntry s i).transposition)).eraseDups

/-- The origin of entry `i` when it is the current or the engaged next entry (R127). -/
def originOf (s : State) (i : EntryNo) : Option Pos :=
  if s.follower.current = some i then some s.follower.origin
  else match s.follower.current, s.follower.next with
    | some c, some e => if c.val + 1 = i.val then some e.origin else none
    | _, _ => none

/-- The index of the engaged next entry (R44). -/
def engagedIndex (s : State) : Option EntryNo :=
  match s.follower.current, s.follower.next with
  | some c, some _ => entryNo? (c.val + 1)
  | _, _ => none

/-! ### Issue queues (section 7.2) -/

/-- The issue queue of division `d`. -/
def queue (s : State) (d : Division) : List Action := s.sched.queues.get d

/-- `s` with the issue queue of `d` replaced. -/
def withQueue (s : State) (d : Division) (q : List Action) : State :=
  s.withSched { s.sched with queues := s.sched.queues.set d q }

/-- Action `b` stands before a newly placed action `a`: lower position, or equal position and not a press before a release
(R129). -/
def standsBefore (a b : Action) : Bool :=
  decide (b.pos < a.pos) || (decide (b.pos = a.pos) && (decide (b.kind = .release) || decide (a.kind = .press)))

/-- A placed action takes its place in the order of R129. -/
def insertAction (q : List Action) (a : Action) : List Action :=
  q.takeWhile (standsBefore a) ++ a :: q.dropWhile (standsBefore a)

/-- `b` is the partner of `a`: the other action of the same step and entry (R128). -/
def partners (a b : Action) : Bool := decide (a.kind ≠ b.kind) && decide (a.step = b.step) && decide (a.entry = b.entry)

/-- No issue queue holds an action of entry `i`. -/
def noActions (s : State) (i : EntryNo) : Bool :=
  Division.all.all fun d => (queue s d).all fun a => decide (a.entry ≠ i)

/-- Removes key `k` from an action, and from its held-over keys. -/
def dropKey (k : Key) (a : Action) : Action :=
  { a with keys := a.keys.filter fun x => decide (x ≠ k), heldOver := a.heldOver.filter fun x => decide (x.key ≠ k) }

/-! ### Ties (R133) -/

/-- A waiting release at position `x` that carries key `k`. -/
def tieSource (x : Pos) (k : Key) (a : Action) : Bool :=
  decide (a.kind = .release) && decide (a.pos = x) && a.keys.contains k

/-- One key of a tie step: taken out of the first waiting release at the press position that carries it, in queue order where several do
(note 43), and held over. Answers the queue, the keys left to the press and the keys held over. -/
def tieKey (x : Pos) (acc : List Action × List Key × List HeldKey) (k : Key) : List Action × List Key × List HeldKey :=
  match acc.1.find? (tieSource x k) with
  | some r =>
    let r' := dropKey k r
    let q := if r'.keys = [] then acc.1.erase r else acc.1.replace r r'
    (q, acc.2.1, acc.2.2 ++ [{ key := k, step := r.step, entry := r.entry }])
  | none => (acc.1, acc.2.1 ++ [k], acc.2.2)

/-- The tie of a step's keys at its press position (R133). -/
def applyTie (q : List Action) (x : Pos) (keys : List Key) : List Action × List Key × List HeldKey :=
  keys.foldl (tieKey x) (q, [], [])

/-- Places the press and the release of step `n` of entry `i` in the queue of its division, with its tie, and sets its sounding to
NOT-YET (R132 step 4). -/
def placeStep (s : State) (i : EntryNo) (o : Pos) (n : StepNo) : State :=
  let m := (stepRec s n).music
  let x := pressPos s o n
  let y := releasePos s i o n
  let keys := effectiveKeys s i n
  let q := queue s m.division
  let tied := if m.tie then applyTie q x keys else (q, keys, [])
  let press : Action :=
    { kind := .press, pos := x, step := n, entry := i, keys := tied.2.1, heldOver := tied.2.2, relPos := y, waitOn := none }
  let release : Action :=
    { kind := .release, pos := y, step := n, entry := i, keys := keys, heldOver := tied.2.2, relPos := y, waitOn := none }
  writeSounding (withQueue s m.division (insertAction (insertAction tied.1 press) release)) n .notYet

/-! ### Walks (section 7.3) -/

/-- The first place from `place` on, and below `limit`, whose step satisfies `p`. -/
def findFrom (c : List StepNo) (place limit : Nat) (p : StepNo → Bool) : Option (Nat × StepNo) :=
  (((c.zipIdx).drop place).find? fun x => decide (x.2 < limit) && p x.1).map fun x => (x.2, x.1)

/-- The keyed step a placement walk at `place` comes to next; steps that take no part and cue steps are passed over without cost
(R130). None when the walk is finished. -/
def walkHead (s : State) (i : EntryNo) (place : Nat) : Option (Nat × StepNo) :=
  findFrom (entryChain s i) place (entryChain s i).length (keyed s i)

/-- The place of a placement walk, with the entry it reads and that entry's origin. -/
def walkAt (s : State) (w : WalkSel) : Option (EntryNo × Pos × Nat) :=
  match w with
  | .current =>
    match s.follower.current, s.sched.walkCurrent with
    | some i, some p => some (i, s.follower.origin, p)
    | _, _ => none
  | .next =>
    match engagedIndex s, s.follower.next, s.sched.walkNext with
    | some i, some e, some p => some (i, e.origin, p)
    | _, _, _ => none

/-- `s` with the place of a placement walk replaced. -/
def withWalk (s : State) (w : WalkSel) (p : Option Nat) : State :=
  match w with
  | .current => s.withSched { s.sched with walkCurrent := p }
  | .next => s.withSched { s.sched with walkNext := p }

/-- The step a catch-up part of division `d` comes to next: keyed, of `d`, its press position beyond the position at the lift
(R145). Parts of entries neither current nor engaged are passed over. -/
def catchPartHead (s : State) (d : Division) (lift : Pos) (p : CatchPart) : Option (EntryNo × Pos × Nat × StepNo) :=
  match originOf s p.entry with
  | some o =>
    if readable s p.entry then
      (findFrom (entryChain s p.entry) p.place p.limit fun n =>
        keyed s p.entry n && decide ((stepRec s n).music.division = d) && decide (lift < pressPos s o n)).map
          fun x => (p.entry, o, x.1, x.2)
    else none
  | none => none

/-- The step the catch-up walk of `d` comes to next; none when the walk is finished or there is none (R145). -/
def catchHead (s : State) (d : Division) : Option (EntryNo × Pos × Nat × StepNo) :=
  match s.sched.catchUp.get d with
  | some c => c.parts.findSome? (catchPartHead s d c.liftPos)
  | none => none

/-- What R132 does with a keyed step. -/
inductive Deal where
  | passOver | tooLate | noRoom | place
  deriving DecidableEq, Repr

/-- The queue of division `d` has two free places, for a press and a release (R129, R132 step 3). -/
def hasRoom (s : State) (d : Division) : Bool := decide ((queue s d).length + 2 ≤ Config.queueMax)

/-- R132 steps 1 to 4 for step `n` of entry `i`. -/
def dealOf (s : State) (i : EntryNo) (o : Pos) (n : StepNo) : Deal :=
  let d := (stepRec s n).music.division
  if overridden s d then .passOver
  else if releasePos s i o n ≤ position s then .tooLate
  else if hasRoom s d then .place
  else .noRoom

/-- The walk that waits for room waits at step `n` of entry `i` (R132 step 3); `c` tells a catch-up walk from a placement walk. -/
def stalledAt (s : State) (c : Bool) (i : EntryNo) (n : StepNo) : Bool :=
  match s.sched.stalled with
  | some w => decide (w.entry = i) && decide (w.step = n) && decide (w.catchUp = c)
  | none => false

/-- The step a placement walk has come to: its list readable, the step within the look-ahead or waited at already, its division's
catch-up walk finished (R130, R132, R145). -/
def walkReady (s : State) (w : WalkSel) : Option (EntryNo × Pos × Nat × StepNo) :=
  match walkAt s w with
  | some (i, o, p) =>
    if readable s i then
      match walkHead s i p with
      | some (at_, n) =>
        if (stalledAt s false i n = true ∨ pressPos s o n ≤ position s + Config.lookAhead) ∧
            catchHead s (stepRec s n).music.division = none then
          some (i, o, at_, n)
        else none
      | none => none
    else none
  | none => none

/-- A walk that is at a step waits there for room (R132 step 3). -/
def waitsAt (s : State) (c : Bool) (h : Option (EntryNo × Pos × Nat × StepNo)) : Bool :=
  match h with
  | some (i, _, _, n) => stalledAt s c i n
  | none => false

/-- Some walk waits for room, and so every walk waits (R132 step 3). -/
def walksWait (s : State) : Bool :=
  waitsAt s false (walkReady s .current) || waitsAt s false (walkReady s .next) ||
    Division.all.any fun d => waitsAt s true (catchHead s d)

/-- A walk that is at step `n` of entry `i` may deal with it: one that waits for room when two places are free, any other when no walk
waits (R132 step 3). -/
def mayDeal (s : State) (c : Bool) (i : EntryNo) (n : StepNo) : Bool :=
  if stalledAt s c i n then hasRoom s (stepRec s n).music.division else !walksWait s

/-- `s` with the walk that waits for room replaced. -/
def withStall (s : State) (w : Option Stall) : State := s.withSched { s.sched with stalled := w }

/-- Deals with step `n` of entry `i` (R132), leaving the walk's place to the caller: without room the walk waits from now on, else
it waits no more. -/
def dealWith (s : State) (c : Bool) (i : EntryNo) (o : Pos) (n : StepNo) : State :=
  match dealOf s i o n with
  | .passOver => withStall s none
  | .tooLate => withStall (writeSounding s n .dropped) none
  | .noRoom => withStall s (some { entry := i, step := n, division := (stepRec s n).music.division, catchUp := c })
  | .place => withStall (placeStep s i o n) none

/-! ### Registration switches (R47, R143) -/

/-- The placement walk of entry `i` is finished: every step placed or passed over, its catch-up parts too (R47, note 17). -/
def walkFinished (s : State) (i : EntryNo) (place : Option Nat) : Bool :=
  match place with
  | some p => readable s i && (walkHead s i p).isNone &&
      Division.all.all fun d => match catchHead s d with
        | some (j, _, _, _) => decide (j ≠ i)
        | none => true
  | none => false

/-- Entry `i` has finished sounding (R47): its walk is finished, or discarded since it is neither current nor next, be it unfinished (note
44), and no queue holds an action of it. It is worked out afresh whenever it is asked for, and no record of an earlier finishing is kept
(note 31). -/
def finishedSounding (s : State) (i : EntryNo) : Bool :=
  noActions s i &&
    (if s.follower.current = some i then walkFinished s i s.sched.walkCurrent
     else if engagedIndex s = some i then walkFinished s i s.sched.walkNext
     else true)

/-- Entry `i`'s registration switch has been made (R47). A switch record above `i` counts as showing it made (note 32). -/
def switchMade (s : State) (i : EntryNo) : Bool :=
  match s.sched.switched with
  | some j => decide (i.val ≤ j.val)
  | none => false

/-- Makes entry `i`'s registration switch; a KEEP entry makes none (R47). -/
def makeSwitch (s : State) (i : EntryNo) : State :=
  match (planEntry s i).registration with
  | some k => setActive (s.withSched { s.sched with switched := some i }) (some k)
  | none => s

/-- The entry before `i`. -/
def entryBefore (i : EntryNo) : Option EntryNo := if i.val = 0 then none else some ⟨i.val - 1, by omega⟩

/-- Makes entry `i`'s switch when entry `i - 1` has finished sounding (R47 item 2). -/
def switchIfFinished (s : State) (i : EntryNo) : State :=
  match entryBefore i with
  | some j => if !switchMade s i && finishedSounding s j then makeSwitch s i else s
  | none => s

/-- The current entry is not to be played: a FINISH in WAITING has gone to ENDING before the entry began, so that no walk of it has
begun either (R120, R130). -/
def cancelled (s : State) : Bool := decide (s.follower.play = .ending) && s.sched.walkCurrent.isNone

/-- Makes the switches that wait on an entry's finishing: of the current entry, unless a FINISH has cancelled it (R47), then of the
engaged next entry (R143). -/
def waitingSwitches (s : State) : State :=
  let s1 := match cancelled s, s.follower.current with
    | false, some i => switchIfFinished s i
    | _, _ => s
  match engagedIndex s1 with
  | some i => switchIfFinished s1 i
  | none => s1

/-! ### Due actions (sections 7.4 and 7.5) -/

/-- A press's due time by the formula, as tu from now (R134): the lead taken off. -/
def pressTime (s : State) (d : Division) (a : Action) : Int := timeTo s a.pos - pressLead s d a.entry

/-- A press's due time when the clock gives one (R134). -/
def pressDueIn (s : State) (d : Division) (a : Action) : Option Int := (dueIn s a.pos).map fun x => x - pressLead s d a.entry

/-- A press is due (R134): a position below the anchor position is past. -/
def pressDue (s : State) (d : Division) (a : Action) : Bool :=
  match pressDueIn s d a with
  | some x => decide (x ≤ 0) || decide (a.pos < s.clock.x0)
  | none => false

/-- The presses that stand after release `a` in its queue and carry any of its keys (R135). -/
def pulling (q : List Action) (a : Action) : List Action :=
  (q.dropWhile fun b => decide (b ≠ a)).filter fun b =>
    decide (b.kind = .press) && b.keys.any fun k => a.keys.contains k

/-- The least of a list of numbers and a first one. -/
def least (x : Int) (l : List Int) : Int := l.foldl min x

/-- A release's due time as tu from now: its own, pulled ahead of the presses that follow it (R135). -/
def releaseDueIn (s : State) (d : Division) (a : Action) : Option Int :=
  (dueIn s a.pos).map fun x =>
    least (x - releaseLead s d)
      (((pulling (queue s d) a).filterMap (pressDueIn s d)).map fun y => y - (s.tables.gap : Int))

/-- A release is held: its partner press, or a press from whose step it holds a key over, is still queued (R135). -/
def releaseHeld (q : List Action) (a : Action) : Bool :=
  q.any fun b => decide (b.kind = .press) &&
    (partners a b || a.heldOver.any fun h => decide (h.step = b.step) && decide (h.entry = b.entry))

/-- A release is issuable (R136). One that R137 keeps with held-over keys follows R135 and R58 like any other, so it is not due while
a HOLD or WAIT stop point stands at its position (note 30). -/
def releaseReady (s : State) (d : Division) (a : Action) : Bool :=
  (match releaseDueIn s d a with
    | some x => decide (x ≤ 0) || decide (a.pos < s.clock.x0)
    | none => false) && !releaseHeld (queue s d) a

/-- A key-up at `u` lies less than G before now (R138). -/
def withinGap (s : State) (u : PartTime) : Bool := decide (tdiff s.partTime u < (s.tables.gap : Int))

/-- A press that is due and is to be examined: not waiting for the gap, or the gap it waited for is over (R138). -/
def pressReady (s : State) (d : Division) (a : Action) : Bool :=
  pressDue s d a && (match a.waitOn with
    | some u => !withinGap s u
    | none => true)

/-- An action is issuable, or to be examined (R136, R138). -/
def actionReady (s : State) (d : Division) (a : Action) : Bool :=
  match a.kind with
  | .press => pressReady s d a
  | .release => releaseReady s d a

/-- The first action of the queue of `d` that is issuable now: they are taken in queue order (R136). -/
def firstReady (s : State) (d : Division) : Option Action := (queue s d).find? (actionReady s d)

/-- The latest key-up among a press's keys that lies less than G before now (R138). -/
def gapWait (s : State) (d : Division) (a : Action) : Option PartTime :=
  (a.keys.filterMap fun k => (vget (s.sched.keyUps.get d) k).filter (withinGap s)).foldl
    (fun acc u => match acc with
      | some v => some (if tdiff v u < 0 then u else v)
      | none => some u) none

/-! ### The drop rule (R137) -/

/-- A later press that holds key `k` over from step `n` of entry `i`, or its release. -/
def holdsOver (k : Key) (n : StepNo) (i : EntryNo) (a : Action) : Bool :=
  a.heldOver.any fun h => decide (h.key = k) && decide (h.step = n) && decide (h.entry = i)

/-- The held-over mark of key `k` leaves an action. -/
def forgetHeld (k : Key) (a : Action) : Action := { a with heldOver := a.heldOver.filter fun h => decide (h.key ≠ k) }

/-- Key `k` of dropped step `n` returns to the later press that holds it over, and stays in that press's release (R137). Where that
press has been issued already, the key stays in its release alone, no longer as held over (note 38). -/
def returnKey (n : StepNo) (i : EntryNo) (q : List Action) (k : Key) : List Action :=
  q.map fun b =>
    if holdsOver k n i b then
      match b.kind with
      | .press => { forgetHeld k b with keys := b.keys ++ [k] }
      | .release => forgetHeld k b
    else b

/-- The partner release of a dropped press keeps its held-over keys alone (R137). -/
def keepHeld (a : Action) (b : Action) : Action :=
  if partners a b then { b with keys := b.keys.filter fun k => b.heldOver.any fun h => decide (h.key = k) } else b

/-- The queue after press `a` is dropped (R137). -/
def dropFrom (q : List Action) (a : Action) : List Action :=
  let q1 := ((q.erase a).map (keepHeld a)).filter fun b => !(partners a b && b.keys.isEmpty)
  a.keys.foldl (returnKey a.step a.entry) q1

/-- Drops press `a` (R137): removed with its keys, its step DROPPED. -/
def dropPress (s : State) (d : Division) (a : Action) : State :=
  writeSounding (withQueue s d (dropFrom (queue s d) a)) a.step .dropped

/-! ### Issue (R139, R140) -/

/-- `s` with the hold counts of `d` replaced. -/
def withHolds (s : State) (d : Division) (v : Vector Nat 61) : State :=
  s.withSched { s.sched with holds := s.sched.holds.set d v }

/-- A key at count 15 is removed from the press's sounding (R139 item 2): from a later press that holds it over and that press's
release, else from the partner release. A later press that has been issued already is no such press, and its release keeps the key
(note 39). -/
def capKey (a : Action) (q : List Action) (k : Key) : List Action :=
  if q.any fun b => decide (b.kind = .press) && holdsOver k a.step a.entry b then
    q.map fun b => if holdsOver k a.step a.entry b then dropKey k b else b
  else q.map fun b => if partners a b then dropKey k b else b

/-- The keys of an issued press, each in turn (R139 item 2): the queue and the hold counts after them. -/
def pressKeys (a : Action) (acc : List Action × Vector Nat 61) (k : Key) : List Action × Vector Nat 61 :=
  if 15 ≤ vget acc.2 k then (capKey a acc.1 k, acc.2) else (acc.1, vset acc.2 k (vget acc.2 k + 1))

/-- Marks the key frame of `d` due when its playback image changed (R142). -/
def markIfChanged (d : Division) (old : BitVec 64) (s : State) : State :=
  if playImage s d = old then s else markDue s (.keys d)

/-- Boost-until is raised to the later of its value and the candidate (R89). -/
def raiseBoost (s : State) (d : Division) (i : EntryNo) : State :=
  let candidate := after s.partTime (pressLead s d i + (bleedLength s d : Int))
  let later : PartTime := match s.detector.boostUntil with
    | some b => if tdiff b candidate < 0 then candidate else b
    | none => candidate
  s.withDetector { s.detector with boostUntil := some later }

/-- The sounding of a press issued now (R139 item 4). -/
def soundingOf (s : State) (d : Division) (a : Action) : Sounding :=
  if -(pressTime s d a) ≤ Config.lateLimit then .sounded else .late

/-- Issues press `a` (R139): the registration switch, the keys, the frame, the sounding, the boost. -/
def issuePress (s : State) (d : Division) (a : Action) : State :=
  let s1 := if a.entry.val ≠ 0 ∧ !switchMade s a.entry then makeSwitch s a.entry else s
  let moved := a.keys.foldl (pressKeys a) ((queue s1 d).erase a, s1.sched.holds.get d)
  let s2 := markIfChanged d (playImage s1 d) (withHolds (withQueue s1 d moved.1) d moved.2)
  let s3 := writeSounding s2 a.step (soundingOf s1 d a)
  if s.follower.mode = .follow then raiseBoost s3 d a.entry else s3

/-- A due press is examined (R137, R138, R139): dropped, or set waiting for the gap, or issued. -/
def examinePress (s : State) (d : Division) (a : Action) : State :=
  if a.relPos ≤ position s then dropPress s d a
  else match gapWait s d a with
    | some u => withQueue s d ((queue s d).replace a { a with waitOn := some u })
    | none => issuePress s d a

/-- One key of a release: its count falls by 1, and at 0 its last key-up time becomes `t` (R140). -/
def releaseKey (t : PartTime) (acc : Vector Nat 61 × Vector (Option PartTime) 61) (k : Key) :
    Vector Nat 61 × Vector (Option PartTime) 61 :=
  let n := vget acc.1 k - 1
  (vset acc.1 k n, if vget acc.1 k = 1 then vset acc.2 k (some t) else acc.2)

/-- Issues release `a` (R140). -/
def issueRelease (s : State) (d : Division) (a : Action) : State :=
  let moved := a.keys.foldl (releaseKey s.partTime) (s.sched.holds.get d, s.sched.keyUps.get d)
  let s1 := withHolds (withQueue s d ((queue s d).erase a)) d moved.1
  markIfChanged d (playImage s d) (s1.withSched { s1.sched with keyUps := s1.sched.keyUps.set d moved.2 })

/-! ### Purge and stop (section 7.7) -/

/-- The last key-up times of `d` with every held key stamped with the present part time (R144). -/
def stampedKeyUps (s : State) (d : Division) : Vector (Option PartTime) 61 :=
  (heldKeys (s.sched.holds.get d)).foldl (fun v k => vset v k (some s.partTime)) (s.sched.keyUps.get d)

/-- The purge of division `d` (R144): queue, hold counts and image emptied, held keys stamped, its key frame marked due if the
image held any key; its catch-up walk is discarded, and its wait for room with it (R145). A placement walk that waits for room in the
queue of `d` has room now, and its step is dealt with at once by STEP_PLACE (R132 step 3). -/
def purge (s : State) (d : Division) : State :=
  let s1 := s.withSched { s.sched with
    queues := s.sched.queues.set d []
    holds := s.sched.holds.set d (Vector.replicate 61 0)
    keyUps := s.sched.keyUps.set d (stampedKeyUps s d)
    catchUp := s.sched.catchUp.set d none
    stalled := s.sched.stalled.filter fun w => !(w.catchUp && decide (w.division = d)) }
  if (heldKeys (s.sched.holds.get d)).isEmpty then s1 else markDue s1 (.keys d)

/-- All four divisions purged, Pedal, Great, Swell, Positive in turn (note 33 for the order of their markers). -/
def purgeAll (s : State) : State := Division.all.foldl purge s

/-- The walks and catch-up walks are discarded and the switch record becomes none (R146). -/
def discardWalks (s : State) : State :=
  s.withSched { s.sched with walkCurrent := none, walkNext := none, catchUp := PerDiv.fill none, stalled := none, switched := none }

/-- The active registration and the switch record become none and the playback stop image empty (R54). -/
def clearRegistration (s : State) : State := setActive (s.withSched { s.sched with switched := none }) none

/-! ### Resumption (R145) -/

/-- The catch-up parts of a lift: of the current and of the engaged next entry, the places their walks have already passed. No list
is read for it (R33). -/
def catchParts (s : State) : List CatchPart :=
  ([WalkSel.current, WalkSel.next].filterMap (walkAt s)).map fun w => { entry := w.1, place := 0, limit := w.2.2 }

/-- Division `d` leaves override (R145): a catch-up walk begins over the passed steps of the entries in play. -/
def resumeDivision (s : State) (d : Division) : State :=
  match catchParts s with
  | [] => s
  | parts => s.withSched { s.sched with catchUp := s.sched.catchUp.set d (some { liftPos := position s, parts := parts }) }

/-! ### Scheduler events -/

/-- STEP_PLACE may deal with the step of walk `w`. -/
def stepPlaceReady (s : State) (w : WalkSel) : Bool :=
  match walkReady s w with
  | some (i, _, _, n) => mayDeal s false i n
  | none => false

/-- STEP_PLACE (R132): the step of walk `w` is dealt with, and the walk moves on unless it waits there for room. -/
def placeFromWalk (s : State) (w : WalkSel) : State :=
  match walkReady s w with
  | some (i, o, at_, n) =>
    let s1 := dealWith s false i o n
    if dealOf s i o n = .noRoom then s1 else waitingSwitches (withWalk s1 w (some (at_ + 1)))
  | none => s

/-- The parts of a catch-up walk once its part over entry `i` has passed place `at_`; the parts before it are done. -/
def catchPast (i : EntryNo) (at_ : Nat) : List CatchPart → List CatchPart
  | [] => []
  | p :: rest => if p.entry = i then { p with place := at_ + 1 } :: rest else catchPast i at_ rest

/-- CATCH_UP_PLACE may deal with a step of `d`. -/
def catchUpReady (s : State) (d : Division) : Bool :=
  match catchHead s d with
  | some (i, _, _, n) => mayDeal s true i n
  | none => false

/-- CATCH_UP_PLACE (R145): the step of `d`'s catch-up walk is dealt with, and the walk moves on unless it waits there for room. -/
def placeFromCatchUp (s : State) (d : Division) : State :=
  match catchHead s d, s.sched.catchUp.get d with
  | some (i, o, at_, n), some c =>
    let s1 := dealWith s true i o n
    if dealOf s i o n = .noRoom then s1
    else waitingSwitches (s1.withSched { s1.sched with
      catchUp := s1.sched.catchUp.set d (some { c with parts := catchPast i at_ c.parts }) })
  | _, _ => s

/-- PRESS_ISSUE: the first issuable action of `d` is a press (R136). -/
def pressFirst (s : State) (d : Division) : Option Action := (firstReady s d).filter fun a => decide (a.kind = .press)

/-- RELEASE_ISSUE: the first issuable action of `d` is a release (R136). -/
def releaseFirst (s : State) (d : Division) : Option Action := (firstReady s d).filter fun a => decide (a.kind = .release)

/-- The last key-up time of key `k` lies 2^30 tu or more back (R141). -/
def keyUpOld (s : State) (d : Division) (k : Key) : Bool :=
  match vget (s.sched.keyUps.get d) k with
  | some u => decide (Config.oldAge ≤ tdiff s.partTime u)
  | none => false

/-- KEY_UP_TIME_EXPIRY (R141). -/
def forgetKeyUp (s : State) (d : Division) (k : Key) : State :=
  s.withSched { s.sched with keyUps := s.sched.keyUps.set d (vset (s.sched.keyUps.get d) k none) }

end Machine

end Sys2Proof
end

