-- ==== Sys2Proof/Machine/Follower.lean ====
section
/-! DEFINITION. The follower (spec 06): the next entry (R102), the stop point (R103), starting an entry (R100, R101), waits and
holds (R114 to R119), the window list and matching (R105 to R109, R113), confidence (R110 to R112), finishing and stopping (R120 to
R122), modes (R123, R124) and the lock set (R125, R33). -/

namespace Sys2Proof

namespace Machine

/-- Play is RUNNING or GAP: the states in which the follower acts on positions (R103, R104). -/
def playing (s : State) : Bool := decide (s.follower.play = .running) || decide (s.follower.play = .gap)

/-- `s` with its play state replaced. -/
def withPlay (s : State) (p : Play) : State := s.withFollower { s.follower with play := p }

/-! ### The current phrase and the next entry (R36, R102) -/

/-- The end of the current phrase, once its list is in the lock set (R11, R33). -/
def phraseEnd (s : State) : Option Pos :=
  match s.follower.current with
  | some i => if readable s i then some (s.follower.origin + (phraseLength s (planEntry s i).list : Int) * Config.tick) else none
  | none => none

/-- The index of the next entry: current + 1, below the plan size, and no FINISH pending (R36, R102). -/
def nextIndex (s : State) : Option EntryNo :=
  match s.follower.current with
  | some c => if c.val + 1 < s.tables.planSize ∧ s.follower.finish ≠ .pending then entryNo? (c.val + 1) else none
  | none => none

/-- The gap of an ORGAN-LED start in subticks; a CONTINUE entry has none (R101). -/
def gapOf (e : PlanEntry) : Int := if e.start = .continue_ then 0 else (e.gap : Int) * Config.tick

/-- The start as applied of an entry whose list need not be read: a CHOIR-LED start is ORGAN-LED in STEADY (R101, R102). -/
def startKind (s : State) (e : PlanEntry) : StartKind :=
  if e.start = .choirLed ∧ s.follower.mode = .steady then .organLed else e.start

/-! ### Holds and expected points (R5, R6, R105) -/

/-- The hold positions an entry of origin `o` has (R6). -/
def holdsOf (s : State) (i : EntryNo) (o : Pos) : List Pos :=
  ((entryChain s i).filter fun n => takesPart s i n && (stepRec s n).music.fermata).map (releasePos s i o)

/-- Step `n` gives an expected point in entry `i` (R5). -/
def expected (s : State) (i : EntryNo) (n : StepNo) : Bool := takesPart s i n && (stepRec s n).music.expect

/-- The expected points of entry `i` of origin `o` from onset `from_` on, in position order; steps of one position make one point
(R105). The W of the present profile stands in each (R179). -/
def pointsFrom (s : State) (i : EntryNo) (o : Pos) (from_ : Nat) : List Point :=
  let ns := (entryChain s i).filter fun n => expected s i n && decide (from_ ≤ (stepRec s n).music.onset)
  ((ns.map fun n => (stepRec s n).music.onset).eraseDups).map fun t =>
    { pos := o + (t : Int) * Config.tick, width := s.tables.follow.w, entry := i
      steps := ns.filter fun n => decide ((stepRec s n).music.onset = t) }

/-- Entry `i` has an expected point (R5). -/
def hasPoints (s : State) (i : EntryNo) : Bool := (entryChain s i).any (expected s i)

/-- The points of the current entry not yet opened (R105); none while its list cannot be read (R33). -/
def currentPoints (s : State) : List Point :=
  match s.follower.current, s.follower.pointsCurrent with
  | some i, some t => if readable s i then pointsFrom s i s.follower.origin t else []
  | _, _ => []

/-- The points of the engaged next entry not yet opened (R105). -/
def nextPoints (s : State) : List Point :=
  match engagedIndex s, s.follower.next, s.follower.pointsNext with
  | some i, some e, some t => if readable s i then pointsFrom s i e.origin t else []
  | _, _, _ => []

/-- The point walk from where it stands: the current entry, then the engaged next entry (R105). -/
def remainingPoints (s : State) : List Point := currentPoints s ++ nextPoints s

/-! ### The stop point (R103) -/

/-- The holds of the current and of the engaged next entry, unreleased and not behind position `x` (R103 item 1). -/
def openHolds (s : State) (x : Pos) : List Pos :=
  let now := match s.follower.current with
    | some i => if readable s i then holdsOf s i s.follower.origin else []
    | none => []
  let later := match engagedIndex s, s.follower.next with
    | some i, some e => if readable s i then holdsOf s i e.origin else []
    | _, _ => []
  (now ++ later).filter fun h => decide (x ≤ h) && !s.follower.released.contains h

/-- The least of a list of positions. -/
def leastPos : List Pos → Option Pos
  | [] => none
  | h :: rest => some (rest.foldl min h)

/-- The stop point R103 gives in RUNNING and GAP. -/
def chosenStop (s : State) : Option StopPoint :=
  match leastPos (openHolds s (position s)), phraseEnd s, nextIndex s with
  | some h, _, _ => some { pos := h, kind := .hold, reachedAt := none }
  | none, some e, none => some { pos := e, kind := .end_, reachedAt := none }
  | none, some e, some i =>
    if s.follower.next = none ∧ startKind s (planEntry s i) = .choirLed then
      some { pos := e, kind := .wait, reachedAt := none }
    else none
  | none, none, _ => none

/-- Forms the stop point afresh; in the other play states it stays the one reached (R103). -/
def formStop (s : State) : State :=
  if playing s then s.withFollower { s.follower with stop := chosenStop s } else s

/-! ### The lock set (R125, R33) -/

/-- The lists play calls for: the current entry's, and the engaged next entry's (R33). -/
def calledLists (s : State) : List ListNo :=
  match s.follower.current, engagedIndex s with
  | some i, some j => [(planEntry s i).list, (planEntry s j).list].eraseDups
  | some i, none => [(planEntry s i).list]
  | none, _ => []

/-- Forms the lock set afresh: the lists called for, less those outside it that are involved in a command in flight (R125, R33). -/
def formLocks (s : State) : State :=
  s.withFollower { s.follower with
    lockSet := (calledLists s).filter fun l => listLocked s l || !involved s l }

/-! ### Entering HOLDING, ENDING and WAITING (R117, R121, R114) -/

/-- The span of a timer: beats at the present P (R77). -/
def beatsSpan (s : State) (beats : Nat) : Int := ((beats * s.clock.period : Nat) : Int)

/-- Enters HOLDING at `x` (R117): reach time, hold timer, HOLD alert. -/
def enterHolding (s : State) (x : Pos) : State :=
  let limit := match s.follower.current with
    | some i => (planEntry s i).hold
    | none => 0
  postAlert (s.withFollower { s.follower with
      play := .holding, stop := some { pos := x, kind := .hold, reachedAt := some s.partTime }
      timer := some (after s.partTime (beatsSpan s limit)) })
    (.hold s.follower.current ((x - s.follower.origin) / Config.tick) s.partTime)

/-- Enters ENDING at `x` (R121): window list emptied, timer stopped. A check for an expected point that a waiting entry was still
owed is dropped, for that entry is not played (R120). -/
def enterEnding (s : State) (x : Pos) : State :=
  s.withFollower { s.follower with
    play := .ending, window := [], timer := none, checkHeld := false
    stop := some { pos := x, kind := .end_, reachedAt := some s.partTime } }

/-- Enters WAITING at `x` for the current entry `i` (R114): the clock HELD there, the lead-in timer started; the check for an
expected point is still to be made when the list cannot be read yet (R101). -/
def enterWaiting (s : State) (i : EntryNo) (x : Pos) : State :=
  (s.withClock { s.clock with state := .held, t0 := s.partTime, x0 := x }).withFollower { s.follower with
    play := .waiting, stop := some { pos := x, kind := .wait, reachedAt := some s.partTime }
    timer := some (after s.partTime (beatsSpan s (planEntry s i).leadIn))
    checkHeld := !readable s i }

/-! ### Starting an entry (R101) -/

/-- The finish state once the engaged entry has become current (R120). -/
def finishOnStart (f : Finish) : Finish := if f = .held then .pending else f

/-- Entry `i` becomes the current entry: walks and point walk handed on from an engaged next entry, walks and catch-up parts of other
entries discarded, released holds cleared, lock set formed (R101, R125, R131). -/
def makeCurrent (s : State) (i : EntryNo) : State :=
  let keep : Option CatchUp → Option CatchUp :=
    Option.map fun c => { c with parts := c.parts.filter fun p => decide (p.entry = i) }
  let s1 := s.withFollower { s.follower with
    current := some i, next := none, finish := finishOnStart s.follower.finish, released := [], checkHeld := false
    pointsCurrent := s.follower.pointsNext, pointsNext := none }
  let s2 := s1.withSched { s.sched with
    walkCurrent := s.sched.walkNext, walkNext := none
    stalled := s.sched.stalled.filter fun w => decide (w.entry = i)
    catchUp := ⟨keep s.sched.catchUp.pedal, keep s.sched.catchUp.great, keep s.sched.catchUp.swell,
      keep s.sched.catchUp.positive⟩ }
  formLocks s2

/-- Applies entry `i`'s tempo, when present, as a period change that discards any pending tempo (R66). -/
def applyEntryTempo (s : State) (i : EntryNo) : State :=
  match (planEntry s i).tempo with
  | some p => changePeriod (s.withClock { s.clock with pendingTempo := none }) (clampPeriod s p)
  | none => s

/-- While RUNNING or GAP, the holds of the current entry that lie behind the position are released without a hold (R104). In the other
play states nothing: a waiting entry has no origin yet, and so no holds. -/
def releasePassed (s : State) : State :=
  match playing s, s.follower.current with
  | true, some i =>
    if readable s i then
      s.withFollower { s.follower with
        released := s.follower.released ++ (holdsOf s i s.follower.origin).filter fun h => decide (h < position s) }
    else s
  | _, _ => s

/-- The clock runs on from the reached stop point against the stop point the follower now holds (R69). Nothing in MOVING. -/
def resumeClock (s : State) : State :=
  match s.clock.state with
  | .held => reanchor s s.partTime s.clock.x0 s.clock.period
  | _ => s

/-- The current entry `i` is given its origin and runs from start position `x`: RUNNING, or GAP before an origin ahead; its walks
begin where they have not; the stop point is formed (R101, R105, R130). -/
def beginAt (s : State) (o x : Pos) : State :=
  formStop (releasePassed ((s.withFollower { s.follower with
      play := if x < o then .gap else .running, origin := o, timer := none, checkHeld := false, stop := none
      pointsCurrent := some (s.follower.pointsCurrent.getD 0) }).withSched { s.sched with
        walkCurrent := some (s.sched.walkCurrent.getD 0) }))

/-- Posts the PHRASE alert of entry `i` (R101). -/
def postPhrase (s : State) (i : EntryNo) (m : Manner) : State :=
  postAlert s (.phrase i (planEntry s i).start m s.partTime)

/-- The current entry begins from `x` with origin `o`, without a sync: PHRASE alert, clock run on, registration switches that wait
(R101, R116, R47). -/
def beginOrgan (s : State) (i : EntryNo) (o x : Pos) (m : Manner) : State :=
  waitingSwitches (resumeClock (postPhrase (beginAt s o x) i m))

/-- The origin an entry begun ORGAN-LED or CONTINUE takes from start position `x`; none when it waits for the choir (R101). An
engaged entry keeps the origin fixed at its engagement (R102). -/
def originFor (s : State) (i : EntryNo) (engaged : Option Engaged) (x : Pos) : Option Pos :=
  match engaged with
  | some e => some e.origin
  | none =>
    if startKind s (planEntry s i) = .choirLed ∧ (!readable s i || hasPoints s i) = true then none
    else some (x + gapOf (planEntry s i))

/-- Entry `i` becomes current at start position `x` and is begun by its start as applied (R101). -/
def enterEntry (s : State) (i : EntryNo) (x : Pos) : State :=
  let s1 := applyEntryTempo (makeCurrent s i) i
  match originFor s1 i s.follower.next x with
  | some o => beginOrgan s1 i o x .organ
  | none => waitingSwitches (enterWaiting s1 i x)

/-- The end of the current phrase when the HELD clock stands beyond it, at a hold of the engaged next entry: that entry becomes
current before the hold is entered (R104). -/
def endBehind (s : State) : Option (EntryNo × Pos) :=
  match phraseEnd s, nextIndex s, s.follower.next with
  | some e, some i, some _ => if e < s.clock.x0 then some (i, e) else none
  | _, _, _ => none

/-- The follower is told of a stop point the clock has reached (R68): the clock is HELD while play is RUNNING or GAP. A WAIT whose
entry turns out to have no expected point runs on, and may reach the next stop point at once, so the look is repeated, at most once
for each entry of the plan. The position reached is the anchor position of the HELD clock (R56). -/
def settleFor : Nat → State → State
  | 0, s => s
  | n + 1, s =>
    match s.clock.state, playing s, s.follower.stop with
    | .held, true, some st =>
      match st.kind, nextIndex s with
      | .hold, _ => match endBehind s with
        | some (i, e) => settleFor n (enterEntry s i e)
        | none => enterHolding s s.clock.x0
      | .end_, _ => enterEnding s s.clock.x0
      | .wait, some i => settleFor n (enterEntry s i s.clock.x0)
      | .wait, none => enterEnding s s.clock.x0
    | _, _, _ => s

/-- The follower is told of a stop point the clock has reached (R68). -/
def settle (s : State) : State := settleFor 65 s

/-- A period applied by a request, and the stop point it may reach (R61, R63, R64). -/
def applyPeriod (s : State) (p : Nat) : State := settle (changePeriod s (clampPeriod s p))

/-- The state of a follower at the taking of START, before entry 0 is begun (R100): entry 0 current, its list locked, confidence
kept, recovery run 0. -/
def startFollower (s : State) : Follower :=
  { s.follower with
    current := some 0, origin := 0, next := none, finish := .none, stop := none, timer := none, window := []
    pointsCurrent := none, pointsNext := none, released := [], run := 0, lockSet := [(planEntry s 0).list]
    heldOnsets := [], checkHeld := false }

/-- The period START applies (R67): the request's, else entry 0's tempo, else P, clamped. -/
def startPeriod (s : State) (request : Option Nat) : Nat :=
  clampPeriod s (match request, (planEntry s 0).tempo with
    | some p, _ => p
    | none, some p => p
    | none, none => s.clock.period)

/-- START taken with every check passed (R100, R67): the clock stands at 0, entry 0's registration switch is made, and entry 0 is
begun from position 0. -/
def startPlay (s : State) (request : Option Nat) : State :=
  let s1 := (s.withClock { s.clock with
    state := .held, t0 := s.partTime, x0 := 0, period := startPeriod s request, pendingTempo := none, highest := 0
    beats := 0 }).withFollower (startFollower s)
  let s2 := makeSwitch (s1.withSched { s1.sched with walkCurrent := none, walkNext := none, stalled := none }) 0
  match originFor s2 0 none 0 with
  | some o => settle (beginOrgan s2 0 o 0 .organ)
  | none => enterWaiting s2 0 0

/-! ### Finishing (R120) -/

/-- A FINISH taken now (R120). -/
def finishPlay (s : State) : State :=
  match s.follower.play with
  | .idle => s
  | .ending => s
  | .waiting =>
    enterEnding (s.withFollower { s.follower with finish := .pending }) s.clock.x0
  | _ =>
    if s.follower.finish ≠ .none then s
    else formStop (s.withFollower { s.follower with
      finish := if s.follower.next.isSome then .held else .pending })

/-! ### Confidence (section 6.4) -/

/-- The confidence state of a counter outside LOST (R110). -/
def confOf (n : Nat) : Conf := if n < 128 then .locked else .doubtful

/-- Sets counter, state and run. -/
def setConf (s : State) (n : Nat) (c : Conf) (run : Nat) : State :=
  s.withFollower { s.follower with counter := n, conf := c, run := run }

/-- The one CONFIDENCE alert of an event that found the state `found`, for the state it leaves the follower in (R111): none when it
leaves the state it found. -/
def announce (found : Conf) (s : State) : State :=
  if s.follower.conf = found then s else postAlert s (.confidence s.follower.conf s.follower.counter s.partTime)

/-- Posts a WARNING when a rise takes the counter from below the warning level to it or above (R111). -/
def warnRise (s : State) (old new : Nat) : State :=
  if old < s.tables.follow.warning ∧ s.tables.follow.warning ≤ new then postAlert s (.warning new s.partTime) else s

/-- A rise of the counter by `n` (R110, R111): 8 for a miss, 1 for an unexpected onset. Entering LOST with the lost action FINISH
acts as a FINISH (R112). -/
def confRise (s : State) (n : Nat) : State :=
  match s.follower.conf with
  | .lost => s.withFollower { s.follower with run := 0 }
  | _ =>
    let old := s.follower.counter
    if 255 < old + n then
      let s1 := setConf (warnRise s old 255) 255 .lost 0
      if s.tables.follow.lostAction = .finish then finishPlay s1 else s1
    else setConf (warnRise s old (old + n)) (old + n) (confOf (old + n)) s.follower.run

/-- A match, or a hard sync counted as one (R110): the counter falls by 1, or in LOST the run rises by 1. -/
def confMatch (s : State) : State :=
  match s.follower.conf with
  | .lost => s.withFollower { s.follower with run := min 8 (s.follower.run + 1) }
  | _ => setConf s (s.follower.counter - 1) (confOf (s.follower.counter - 1)) s.follower.run

/-- The recovery of R112: counter 0, LOCKED, run 0. -/
def recoverConf (s : State) : State := setConf s 0 .locked 0

/-- The recovery run of a LOST follower has reached 8 (R112). -/
def recovers (s : State) : Bool := decide (s.follower.conf = .lost) && decide (8 ≤ s.follower.run)

/-! ### The window list (section 6.3) -/

/-- A point takes its place in position order. -/
def insertPoint (w : List Point) (p : Point) : List Point :=
  w.takeWhile (fun q => decide (q.pos ≤ p.pos)) ++ p :: w.dropWhile (fun q => decide (q.pos ≤ p.pos))

/-- The window list with the point of lowest position removed. -/
def removeLowest (w : List Point) : List Point :=
  match leastPos (w.map Point.pos) with
  | some x => match w.find? fun p => decide (p.pos = x) with
      | some p => w.erase p
      | none => w
  | none => w

/-- The half width of a point's window in subticks. -/
def widthOf (p : Point) : Int := (p.width : Int) * Config.tick

/-- The position has gone beyond a point's window (R106). -/
def passedPoint (x : Pos) (p : Point) : Bool := decide (p.pos + widthOf p < x)

/-- The point walk moves past point `p`; it never goes back (R105). -/
def walkPast (s : State) (p : Point) : State :=
  let onsetAfter (o : Pos) : Nat := ((p.pos - o) / Config.tick + 1).toNat
  if s.follower.current = some p.entry then
    s.withFollower { s.follower with
      pointsCurrent := some (max (s.follower.pointsCurrent.getD 0) (onsetAfter s.follower.origin)) }
  else match s.follower.next with
    | some e => s.withFollower { s.follower with
        pointsNext := some (max (s.follower.pointsNext.getD 0) (onsetAfter e.origin)) }
    | none => s

/-- The point walk deals with the point it has reached (R105): added to the window list, the lowest making room when 8 are held;
passed over when its window lies behind, and in STEADY (R123). -/
def openPoint (s : State) (p : Point) : State :=
  let s1 := walkPast s p
  if s.follower.mode = .steady ∨ passedPoint (position s) p then s1
  else
    let w := if s.follower.window.length < Config.windowMax then s.follower.window else removeLowest s.follower.window
    s1.withFollower { s1.follower with window := insertPoint w p }

/-- The next point of the walk, when the position has reached E − W (R105). -/
def reachedPoint (s : State) : Option Point :=
  match remainingPoints s with
  | p :: _ => if p.pos - widthOf p ≤ position s then some p else none
  | [] => none

/-- Every point the position has reached is dealt with, in order (R109 step 6, R113 item 4). -/
def openReachedFor : Nat → State → State
  | 0, s => s
  | n + 1, s =>
    match reachedPoint s with
    | some p => openReachedFor n (openPoint s p)
    | none => s

/-- Every point the position has reached is dealt with (R109 step 6). -/
def openReached (s : State) : State := openReachedFor (remainingPoints s).length s

/-- A miss (R110). -/
def miss (s : State) : State := confRise s 8

/-- `n` misses, one after another. -/
def misses : Nat → State → State
  | 0, s => s
  | n + 1, s => misses n (miss s)

/-- Every open point the position has passed closes as a miss (R106, R109 step 5). -/
def closePassed (s : State) : State :=
  let gone := s.follower.window.filter (passedPoint (position s))
  misses gone.length (s.withFollower { s.follower with
    window := s.follower.window.filter fun p => !passedPoint (position s) p })

/-! ### Matching (R108, R109) and hard syncs (R113) -/

/-- A deviation clamped into the record's range (R8). -/
def clampDeviation (e : Int) : Int := clampInt (-32767) 32767 e

/-- Writes a match into one step (R8): the deviation, and the match count raised by 1 up to 255. -/
def matchStep (e : Int) (s : State) (n : StepNo) : State :=
  writeResult s n fun r => { r with deviation := some (clampDeviation e), matchCount := min 255 (r.matchCount + 1) }

/-- Writes a match into every step of a point (R8). -/
def writeMatch (s : State) (p : Point) (e : Int) : State := p.steps.foldl (matchStep e) s

/-- The nearer of two points to `x`, the one of lower position when they are equally near (R108). -/
def nearer (x : Pos) (p q : Point) : Point :=
  match compare (p.pos - x).natAbs (q.pos - x).natAbs with
  | .lt => p
  | .gt => q
  | .eq => if p.pos ≤ q.pos then p else q

/-- The point an onset at position `x` matches (R108). -/
def matchFor (s : State) (x : Pos) : Option Point :=
  match s.follower.window.filter fun p => decide (p.pos - widthOf p ≤ x) && decide (x ≤ p.pos + widthOf p) with
  | [] => none
  | p :: rest => some (rest.foldl (nearer x) p)

/-- Points of position below `x`, and the point at `x`, leave the window list without a miss (R113 item 3). -/
def clearBelow (s : State) (x : Pos) : State :=
  s.withFollower { s.follower with window := s.follower.window.filter fun p => decide (x < p.pos) }

/-- The clock's part of a hard sync (R72): the anchor `(tOn, E)` with P unchanged. While STOPPED it is not made (R79). -/
def syncClock (s : State) (tOn : PartTime) (x : Pos) : State :=
  match s.clock.state with
  | .stopped => s
  | _ => reanchor s tOn x s.clock.period

/-- A hard sync to point `p` at onset time `tOn`, from a follower whose new stop point is formed (R113). `e` is the deviation on the
line before the sync. The CONFIDENCE alert is that of the state the whole sync leaves (R111). -/
def hardSync (s : State) (tOn : PartTime) (p : Point) (e : Int) : State :=
  let s1 := confMatch (writeMatch s p e)
  let s2 := if recovers s1 then recoverConf s1 else s1
  let s3 := clearBelow (walkPast (syncClock s2 tOn p.pos) p) p.pos
  announce s.follower.conf (openReached (closePassed s3))

/-- The hold at the clock's position is added to the released holds, its timer stopped (R118, R119). -/
def dropHold (s : State) : State :=
  s.withFollower { s.follower with released := s.clock.x0 :: s.follower.released, timer := none }

/-- The release of the stop point that a recovery's hard sync in HOLDING or WAITING is (R113): the hold is over, or the waiting entry
begins at the wait's position as at a sync of the wait, its play RUNNING (note 15). Nothing in the other play states. -/
def releaseStop (s : State) : State :=
  match s.follower.play, s.follower.current with
  | .holding, _ => formStop (withPlay (dropHold s) .running)
  | .waiting, some i => waitingSwitches (postPhrase (beginAt s s.clock.x0 s.clock.x0) i .synced)
  | _, _ => s

/-- The correction a match makes (R109 step 3); in LOST it is the recovery's hard sync, which in a wait or a hold releases the stop
point too, or none (R112, R113). The sync repeats neither the results nor the count that R109 has given the match (note 45). -/
def correctMatch (s : State) (tOn : PartTime) (p : Point) (e : Int) : State :=
  match s.follower.conf with
  | .locked => correct s tOn e true
  | .doubtful => correct s tOn e false
  | .lost =>
    if recovers s then clearBelow (recoverConf (syncClock (releaseStop s) tOn p.pos)) p.pos else s

/-- A match of an onset of time `tOn` to point `p` (R109). In a wait or a hold no point is passed or reached, unless a recovery has
ended it. -/
def matchPoint (s : State) (tOn : PartTime) (p : Point) : State :=
  let e := p.pos - onsetPosition s tOn
  let s1 := correctMatch (confMatch (writeMatch s p e)) tOn p e
  let s2 := s1.withFollower { s1.follower with window := s1.follower.window.erase p }
  settle (announce s.follower.conf (if playing s2 then openReached (closePassed s2) else s2))

/-- An onset matched as in RUNNING (R108): to the nearest open point, else unexpected. -/
def matchOnset (s : State) (o : Onset) : State :=
  match matchFor s (onsetPosition s o.time) with
  | some p => matchPoint s o.time p
  | none => announce s.follower.conf (confRise s 1)

/-! ### Ends of waits and holds (sections 6.5 and 6.6) -/

/-- A wait ended without the choir (R116): the entry starts ORGAN-LED with gap 0 from the wait's position. -/
def endWait (s : State) (m : Manner) : State :=
  match s.follower.current with
  | some i => settle (beginOrgan s i s.clock.x0 s.clock.x0 m)
  | none => s

/-- An onset that syncs a waiting entry (R115). While the entry's list cannot be read, the onset is held (R33). -/
def syncWait (s : State) (o : Onset) : State :=
  match s.follower.current with
  | some i =>
    if readable s i then
      let x := s.clock.x0
      match pointsFrom s i x 0 with
      | p :: _ =>
        let s1 := beginAt s x x
        settle (waitingSwitches (postPhrase (hardSync s1 o.time p (p.pos - x)) i .synced))
      | [] => s
    else s.withFollower { s.follower with heldOnsets := s.follower.heldOnsets ++ [o] }
  | none => s

/-- The hold's position is at the phrase end, not inside the phrase (R118). -/
def atPhraseEnd (s : State) (x : Pos) : Bool :=
  match phraseEnd s with
  | some e => decide (e ≤ x)
  | none => false

/-- A hold released by a cutoff, its timer or RELEASE (R118). -/
def releaseHold (s : State) : State :=
  let x := s.clock.x0
  let s1 := dropHold s
  if atPhraseEnd s x then
    match nextIndex s with
    | some i => settle (enterEntry s1 i x)
    | none => enterEnding s1 x
  else settle (resumeClock (formStop (withPlay s1 .running)))

/-- The first remaining point at or after `x` of the current entry: open in the window list, or not yet opened (R119). -/
def pointInCurrent (s : State) (x : Pos) : Option Point :=
  (s.follower.window.filter (fun p => decide (s.follower.current = some p.entry)) ++ currentPoints s).find?
    fun p => decide (x ≤ p.pos)

/-- The origin the next entry takes when an onset starts it at `x`: fixed at its engagement, else `x` (R119). -/
def onsetOrigin (s : State) (x : Pos) : Pos :=
  match s.follower.next with
  | some e => e.origin
  | none => x

/-- The first point at or after `x` of next entry `i`: open, or not yet opened. A point of an engaged next entry that has been matched
or closed before the hold is not sought again (R119, note 37). -/
def pointInNext (s : State) (i : EntryNo) (x : Pos) : Option Point :=
  (s.follower.window.filter (fun p => decide (p.entry = i)) ++
    pointsFrom s i (onsetOrigin s x) (if s.follower.next.isSome then s.follower.pointsNext.getD 0 else 0)).find?
      fun p => decide (x ≤ p.pos)

/-- The steps of next entry `i` may be read now: it is engaged and readable, or its list is in no command in flight (R33). -/
def nextReadable (s : State) (i : EntryNo) : Bool :=
  listLocked s (planEntry s i).list || !involved s (planEntry s i).list

/-- An onset that releases a hold and syncs to point `p` of the current entry (R119). -/
def syncInPhrase (s : State) (o : Onset) (p : Point) : State :=
  let s1 := formStop (withPlay (dropHold s) .running)
  settle (hardSync s1 o.time p (p.pos - s.clock.x0))

/-- An onset that releases a hold at the phrase end and starts next entry `i` at point `p` (R119). -/
def syncIntoNext (s : State) (o : Onset) (i : EntryNo) (p : Point) : State :=
  let x := s.clock.x0
  let origin := onsetOrigin s x
  let s1 := applyEntryTempo (makeCurrent (dropHold s) i) i
  let s2 := withPlay (postPhrase (beginAt s1 origin x) i .synced) .running
  settle (waitingSwitches (hardSync s2 o.time p (p.pos - x)))

/-- An onset that belongs to a hold (R119). -/
def syncHold (s : State) (o : Onset) : State :=
  let x := s.clock.x0
  match pointInCurrent s x with
  | some p => syncInPhrase s o p
  | none =>
    match atPhraseEnd s x, nextIndex s with
    | true, some i =>
      if nextReadable s i then
        match pointInNext s i x with
        | some p => syncIntoNext s o i p
        | none => finishPlay (releaseHold s)
      else s.withFollower { s.follower with heldOnsets := s.follower.heldOnsets ++ [o] }
    | _, _ => finishPlay (releaseHold s)

/-! ### Onsets and cutoffs delivered (R107, R95) -/

/-- The mode takes onsets and cutoffs: FOLLOW and REHEARSE do (R107, R123). -/
def listens (s : State) : Bool := decide (s.follower.mode = .follow) || decide (s.follower.mode = .rehearse)

/-- An onset time is at or after the reach time of the stop point (R107). -/
def afterReach (s : State) (t : PartTime) : Bool :=
  match s.follower.stop with
  | some st => match st.reachedAt with
      | some r => decide (0 ≤ tdiff t r)
      | none => true
  | none => true

/-- An onset taken by the follower (R107). -/
def takeOnset (s : State) (o : Onset) : State :=
  match s.follower.play with
  | .idle => s
  | .ending => s
  | .waiting => if afterReach s o.time then syncWait s o else matchOnset s o
  | .holding => if afterReach s o.time then syncHold s o else matchOnset s o
  | .gap => matchOnset s o
  | .running => matchOnset s o

/-- An onset delivered by the detector: taken when the mode listens and the onset is qualified (R107). -/
def deliverOnset (s : State) (o : Onset) : State := if listens s && qualified s o then takeOnset s o else s

/-- A cutoff delivered by the detector: it ends a hold in FOLLOW and REHEARSE (R95, R117). No rule of the follower reads its two
times. -/
def deliverCutoff (s : State) (_ : Cutoff) : State :=
  if listens s && decide (s.follower.play = .holding) then releaseHold s else s

/-! ### Held work taken up (R33, R101) -/

/-- The check for an expected point made when a waiting entry's list joins (R101): with none, the entry is begun ORGAN-LED from the
wait's position, with its gap. -/
def checkWait (s : State) : State :=
  match s.follower.play, s.follower.checkHeld, s.follower.current with
  | .waiting, true, some i =>
    if readable s i then
      if hasPoints s i then s.withFollower { s.follower with checkHeld := false }
      else settle (beginOrgan s i (s.clock.x0 + gapOf (planEntry s i)) s.clock.x0 .organ)
    else s
  | _, _, _ => s

/-- The held onsets are taken, in order, when the mode takes onsets (R33, R107); in another mode they are passed over (R123). -/
def takeHeld (s : State) : State :=
  let s1 := s.withFollower { s.follower with heldOnsets := [] }
  if listens s then s.follower.heldOnsets.foldl takeOnset s1 else s1

/-- At the return to READY the lists play calls for join the lock set and the held work is taken up (R33). The held onsets are taken
before any point of the joined list is opened, which is POINT_OPEN's (note 35), and after the check for an expected point of a waiting
entry (note 41). -/
def joinLists (s : State) : State :=
  if s.follower.play = .idle then s
  else
    let s1 := formLocks s
    let s2 := if s1.follower.lockSet = s.follower.lockSet then s else checkWait (formStop (releasePassed s1))
    waitingSwitches (takeHeld s2)

/-! ### Stopping (R121, R122) -/

/-- The follower's part of every end of play: IDLE, no entry, nothing open, held or locked (R121, R122). -/
def idleFollower (s : State) : State :=
  s.withFollower { s.follower with
    play := .idle, current := none, next := none, finish := .none, stop := none, timer := none, window := []
    pointsCurrent := none, pointsNext := none, released := [], lockSet := [], heldOnsets := [], checkHeld := false }

/-- Play is stopped at once (R122): clock stopped with beat count 0, every division purged, walks and registration dropped. -/
def stopPlay (s : State) : State :=
  clearRegistration (discardWalks (purgeAll (idleFollower (stopClock s true))))

/-- Play is stopped at once when it is not IDLE (R122). -/
def stopIfPlaying (s : State) : State := if s.follower.play = .idle then s else stopPlay s

/-- Every issue queue is empty and every hold count is 0 (R121). -/
def silent (s : State) : Bool := Division.all.all fun d => (queue s d).isEmpty && (heldKeys (s.sched.holds.get d)).isEmpty

/-- ENDING passes to IDLE (R121): a normal end, the beat count kept, the active registration kept, an END alert with that count. -/
def endPlay (s : State) : State :=
  let s1 := stopClock s false
  postAlert (discardWalks (idleFollower s1)) (.ended s.follower.current s1.clock.beats s.partTime)

/-! ### Modes (R124, R165) -/

/-- Marks a key frame for each division whose image is not empty, and the stop frame when the stop image is not empty (R165), in this
order (note 33). -/
def markMerged (s : State) : State :=
  let s1 := Division.all.foldl
    (fun a d => if (heldKeys (s.sched.holds.get d)).isEmpty then a else markDue a (.keys d)) s
  if s.sched.stopImage = 0 then s1 else markDue s1 .stops

/-- Mode `m` takes effect: a change that alters whether images are merged marks the frames (R165); the stop point is formed afresh
(R103). -/
def enterMode (s : State) (m : Mode) : State :=
  let s1 := s.withFollower { s.follower with mode := m, pendingMode := none }
  formStop (if merges m = merges s.follower.mode then s1 else markMerged s1)

/-- A change into STEADY during play (R123): the window list emptied, the onsets held under R33 passed over, a waiting entry started as
by RELEASE (R116). -/
def enterSteady (s : State) : State :=
  let s1 := enterMode (s.withFollower { s.follower with window := [], heldOnsets := [] }) .steady
  if s.follower.play = .waiting then endWait s1 .released else s1

/-- A change to OFF (R124): play stopped, registration dropped whatever the play state. -/
def enterOff (s : State) : State :=
  let s1 := clearRegistration (stopIfPlaying s)
  s1.withFollower { s1.follower with mode := .off, pendingMode := none }

/-- A change between REHEARSE and FOLLOW (R124): at once while IDLE and while every playback key image is empty, else pending. -/
def enterOrWait (s : State) (m : Mode) : State :=
  if s.follower.play = .idle ∨ imagesEmpty s = true then enterMode s m
  else s.withFollower { s.follower with pendingMode := some m }

/-- A MODE that names mode `m` (table of R124). -/
def requestMode (s : State) (m : Mode) : State :=
  if m = s.follower.mode then s.withFollower { s.follower with pendingMode := none }
  else match s.follower.mode, m with
    | _, .off => enterOff s
    | _, .steady => enterSteady s
    | .rehearse, .follow => enterOrWait s m
    | .follow, .rehearse => enterOrWait s m
    | _, _ => enterMode s m

/-- The pending mode takes effect (R124). -/
def applyPendingMode (s : State) : State :=
  match s.follower.pendingMode with
  | some m => enterMode s m
  | none => s

/-! ### Follower events -/

/-- GAP_ORIGIN_REACHED is due (R104). -/
def gapOriginDue (s : State) : Bool := decide (s.follower.play = .gap) && decide (s.follower.origin ≤ position s)

/-- PHRASE_END_REACHED is due: the position has reached the phrase end, no stop point stands there, and a next entry exists
(R104). -/
def phraseEndDue (s : State) : Option (EntryNo × Pos) :=
  match playing s, s.clock.state, phraseEnd s, nextIndex s with
  | true, .moving, some e, some i =>
    if e ≤ position s ∧ (s.follower.stop.map StopPoint.pos) ≠ some e then some (i, e) else none
  | _, _, _, _ => none

/-- PHRASE_END_REACHED (R104, R101): the next entry becomes current at the phrase end. -/
def passPhraseEnd (s : State) : State :=
  match phraseEndDue s with
  | some (i, e) => settle (enterEntry s i e)
  | none => s

/-- A hold stands at the end of the current phrase (R102). -/
def holdAtEnd (s : State) (i : EntryNo) (e : Pos) : Bool := (holdsOf s i s.follower.origin).contains e

/-- The settled origin and the start as applied of next entry `j` (table of R102), or none where it is not settled. -/
def settledOrigin (s : State) (i j : EntryNo) (e : Pos) : Option Engaged :=
  let k := startKind s (planEntry s j)
  let g := gapOf (planEntry s j)
  if k = .choirLed then none
  else if holdAtEnd s i e ∧ s.follower.mode ≠ .steady ∧ g ≠ 0 then none
  else some { start := k, origin := e + g }

/-- The engagement that is due: the look-ahead has reached a settled next origin (R44, R102). -/
def engageDue (s : State) : Option Engaged :=
  match s.follower.current, s.follower.next, phraseEnd s, nextIndex s with
  | some i, none, some e, some j =>
    if playing s || decide (s.follower.play = .holding) then
      (settledOrigin s i j e).filter fun g => decide (g.origin ≤ position s + Config.lookAhead)
    else none
  | _, _, _, _ => none

/-- NEXT_ENTRY_ENGAGE (R44, R102): start and origin fixed, its list joins the lock set, its walks begin. -/
def engageNext (s : State) : State :=
  match engageDue s with
  | some e =>
    waitingSwitches (formStop (formLocks ((s.withFollower { s.follower with next := some e, pointsNext := some 0 }).withSched
      { s.sched with walkNext := some 0 })))
  | none => s

/-- POINT_OPEN is due: the walk's next point is reached while play is RUNNING or GAP (R105, R117). -/
def pointOpenDue (s : State) : Option Point := if playing s then reachedPoint s else none

/-- POINT_CLOSE is due: the position has passed an open point's window (R106). -/
def pointCloseDue (s : State) : Option Point :=
  if playing s then s.follower.window.find? (passedPoint (position s)) else none

/-- The running timer has expired (R77). -/
def timerExpired (s : State) : Bool :=
  match s.follower.timer with
  | some t => due s.partTime t
  | none => false

/-- The lead-in timer has expired (R116). -/
def leadInDue (s : State) : Bool := decide (s.follower.play = .waiting) && timerExpired s

/-- LEAD_IN_EXPIRY (R116): the entry starts, and a miss is counted unless the pickup is STALE (note 14 for their order). -/
def expireLeadIn (s : State) : State :=
  let s1 := endWait s .fellBack
  if s.detector.fresh then settle (announce s.follower.conf (miss s1)) else s1

/-- The hold timer has expired (R117). -/
def holdTimerDue (s : State) : Bool := decide (s.follower.play = .holding) && timerExpired s

/-- ENDING may pass to IDLE (R121). -/
def endingDue (s : State) : Bool := decide (s.follower.play = .ending) && silent s

/-- A pending mode may take effect (R124). -/
def pendingModeDue (s : State) : Bool := s.follower.pendingMode.isSome && imagesEmpty s

end Machine

end Sys2Proof
end

