-- ==== Sys2Proof/Machine/Lists.lean ====
section
/-! DEFINITION. The list controller (spec 02): what a command's taking does (R25 to R30), its visits (R22), the placing of its reply
and the return to READY (R24, R33). -/

namespace Sys2Proof

namespace Machine

/-! ### Changing the chains (R2, R12, R13) -/

/-- `s` with the chain of list `l` replaced. -/
def withChain (s : State) (l : ListNo) (c : List StepNo) : State :=
  s.withStore { s.store with chains := vset s.store.chains l c }

/-- `s` with the list field of step `n` replaced. -/
def withListField (s : State) (n : StepNo) (l : ListNo) : State := writeStep s n { stepRec s n with list := l }

/-- Step `n` is taken out of the chain of list `l`; its neighbours are joined (R2). -/
def unlink (s : State) (l : ListNo) (n : StepNo) : State := withChain s l ((chain s l).erase n)

/-- `n` put immediately after `a` in a chain, or first in it (R12). -/
def insertAfter (c : List StepNo) (after_ : Option StepNo) (n : StepNo) : List StepNo :=
  match after_, c with
  | none, _ => n :: c
  | some _, [] => [n]
  | some a, first :: later => first :: (if first = a then n :: later else insertAfter later (some a) n)

/-- Step `n` joins the tail of the free list: chain, list field (R13, R28, R29). -/
def appendFree (s : State) (n : StepNo) : State := withListField (withChain s 0 (chain s 0 ++ [n])) n 0

/-- The result of a step cleared (R25, R26). -/
def clearedResult (r : StepRec) : StepRec := { r with deviation := none, matchCount := 0, sounding := .notYet }

/-- Writes the musical fields of step `n` and clears its result (R25). -/
def writeMusic (s : State) (n : StepNo) (m : Musical) : State :=
  writeStep s n (clearedResult { stepRec s n with music := m })

/-- Writes the onset of step `n`. -/
def writeOnset (s : State) (n : StepNo) (t : Nat) : State :=
  writeStep s n { stepRec s n with music := { (stepRec s n).music with onset := t } }

/-- The relink or link visit (R22, R25 to R27): one change that takes the step out of its old chain, puts it into `dest` after
`after_`, and writes its onset and its list field. -/
def relink (s : State) (n : StepNo) (t : Nat) (dest : ListNo) (after_ : Option StepNo) : State :=
  let s1 := unlink s (stepRec s n).list n
  let s2 := withChain s1 dest (insertAfter (chain s1 dest) after_ n)
  let s3 := withListField (writeOnset s2 n t) n dest
  s3.withStore { s3.store with unplaced := if s3.store.unplaced = some n then none else s3.store.unplaced }

/-! ### The command in flight -/

/-- `s` with the controller's work replaced and the visit timed. -/
def withWork (s : State) (w : Option Work) : State :=
  s.withCtl { s.ctl with work := w, lastVisit := s.partTime }

/-- A placement walk of step `n` at onset `t` into list `dest` (R12): from the last step toward the first, passing over the step
itself; with none to examine, the link comes next. -/
def walkFor (s : State) (n : StepNo) (t : Nat) (dest : ListNo) : Work :=
  match (chain s dest).reverse.filter fun x => decide (x ≠ n) with
  | [] => .link n t dest none
  | x :: rest => .walk n t dest (x :: rest)

/-- What follows the examining of step `x` by a placement walk (R12). -/
def walkOn (s : State) (n : StepNo) (t : Nat) (dest : ListNo) (x : StepNo) (rest : List StepNo) : Work :=
  if (stepRec s x).music.onset ≤ t then .link n t dest (some x)
  else match rest with
    | [] => .link n t dest none
    | y :: more => .walk n t dest (y :: more)

/-- A reply of the controller (R24): DONE with its data. -/
def ctlReply (s : State) (k : CmdKind) (data : List Byte) : Reply :=
  { tag := s.ctl.tag, code := BitVec.ofNat 8 k.code, result := .done, data := data, clearsLost := false }

/-- The phase returns to READY, the record is emptied, and the lists play calls for join the lock set (R24, R33). -/
def toReady (s : State) : State :=
  joinLists (s.withCtl { s.ctl with phase := .ready, cmd := CommandRecord.empty, work := none, reply := none })

/-- The last visit of a command other than STEP-NEW is complete: its reply is built and waits for the slot (R24). -/
def finishWith (s : State) (k : CmdKind) (data : List Byte) : State :=
  s.withCtl { s.ctl with work := none, lastVisit := s.partTime, reply := some (ctlReply s k data) }

/-- The link visit of a STEP-NEW is complete (R24): READY when its reply has been placed, else the reply still waits. -/
def finishNew (s : State) : State :=
  match s.ctl.reply with
  | some _ => withWork s none
  | none => toReady (withWork s none)

/-- A command's walk ended in its link: its kind decides the reply (R24). -/
def finishLink (s : State) (n : StepNo) (dest : ListNo) : State :=
  match s.ctl.cmd.kind with
  | some .stepNew => finishNew s
  | some .stepMove => finishWith s .stepMove (out16 n.val ++ out8 dest.val)
  | _ => finishWith s .stepSet (out16 n.val)

/-- The reply of the controller is placed when the slot is empty; READY when the walk is complete, else BUSY-RESULT-POSTED (R24,
R25). -/
def placeCtlReply (s : State) : State :=
  match s.relay.slot, s.ctl.reply with
  | none, some r =>
    let s1 := (s.withRelay { s.relay with slot := some r }).withCtl { s.ctl with reply := none }
    match s.ctl.work with
    | none => toReady s1
    | some _ => s1.withCtl { s1.ctl with phase := .busyResultPosted }
  | _, _ => s

/-- A LIST-EMPTY visit (R29): the first step remaining goes to the free list's tail. -/
def emptyVisit (s : State) (l : ListNo) (moved : Nat) : State :=
  match chain s l with
  | n :: rest =>
    let s1 := appendFree (withChain s l rest) n
    if rest = [] then finishWith s1 .listEmpty (out8 l.val ++ out16 (moved + 1))
    else withWork s1 (some (.empty l (moved + 1)))
  | [] => finishWith s .listEmpty (out8 l.val ++ out16 moved)

/-- The first visit of a STEP-SET (R26): every musical field but the onset, and the result cleared; with the onset unchanged it
completes the command. -/
def setVisit (s : State) (n : StepNo) (m : Musical) (dest : ListNo) : State :=
  let old := (stepRec s n).music.onset
  let s1 := writeMusic s n { m with onset := old }
  if m.onset = old then finishWith s1 .stepSet (out16 n.val) else withWork s1 (some (walkFor s1 n m.onset dest))

/-- One visit of the command in flight (R22). -/
def visit (s : State) : State :=
  match s.ctl.work with
  | none => s
  | some (.newWrite n m dest) =>
    let s1 := writeMusic s n m
    withWork s1 (some (walkFor s1 n m.onset dest))
  | some (.setWrite n m dest) => setVisit s n m dest
  | some (.walk n t dest (x :: rest)) => withWork s (some (walkOn s n t dest x rest))
  | some (.walk n t dest []) => withWork s (some (.link n t dest none))
  | some (.link n t dest after_) => finishLink (relink s n t dest after_) n dest
  | some (.free n) => finishWith (appendFree (unlink s (stepRec s n).list n) n) .stepFree (out16 n.val)
  | some (.empty l moved) => emptyVisit s l moved
  | some (.length l t) =>
    finishWith (s.withStore { s.store with lengths := vset s.store.lengths l t }) .listLength (out8 l.val ++ out16 t)

/-- The early reply of a STEP-NEW is placed at a visit when the slot is empty (R24, R25). -/
def placeEarly (s : State) : State :=
  match s.ctl.cmd.kind with
  | some .stepNew => placeCtlReply s
  | _ => s

/-- LIST_VISIT may be made: a command has visits left. -/
def visitDue (s : State) : Bool := s.ctl.work.isSome

/-- LIST_COMMAND_DONE may be made: the controller's reply waits and the slot is empty (R24). -/
def commandDoneDue (s : State) : Bool := s.ctl.reply.isSome && s.relay.slot.isNone

/-! ### Taking a command (R18, R25 to R30) -/

/-- A command is taken (R18): the record filled, the phase BUSY, its visits ahead. -/
def begin_ (s : State) (tag : Byte) (cmd : CommandRecord) (w : Work) : State :=
  s.withCtl { phase := .busy, cmd := cmd, work := some w, tag := tag, reply := none, lastVisit := s.partTime }

/-- The taking of a STEP-NEW (R25): the head of the free list is unlinked and counted in the target list; the reply is built. -/
def beginNew (s : State) (tag : Byte) (n : StepNo) (dest : ListNo) (m : Musical) : State :=
  let s1 := withListField (unlink s 0 n) n dest
  let s2 := s1.withStore { s1.store with unplaced := some n }
  let s3 := begin_ s2 tag { kind := some .stepNew, step := some n, source := none, target := some dest } (.newWrite n m dest)
  s3.withCtl { s3.ctl with reply := some (ctlReply s3 .stepNew (out16 n.val)) }

/-- The taking of a STEP-SET (R26). -/
def beginSet (s : State) (tag : Byte) (n : StepNo) (m : Musical) : State :=
  begin_ s tag { kind := some .stepSet, step := some n, source := some (stepRec s n).list, target := none }
    (.setWrite n m (stepRec s n).list)

/-- The taking of a STEP-MOVE (R27). -/
def beginMove (s : State) (tag : Byte) (n : StepNo) (dest : ListNo) : State :=
  begin_ s tag { kind := some .stepMove, step := some n, source := some (stepRec s n).list, target := some dest }
    (walkFor s n (stepRec s n).music.onset dest)

/-- The taking of a STEP-FREE (R28). -/
def beginFree (s : State) (tag : Byte) (n : StepNo) : State :=
  begin_ s tag { kind := some .stepFree, step := some n, source := some (stepRec s n).list, target := some 0 } (.free n)

/-- The taking of a LIST-EMPTY (R29): with nothing to move its reply is built at the taking. -/
def beginEmpty (s : State) (tag : Byte) (l : ListNo) : State :=
  let s1 := begin_ s tag { kind := some .listEmpty, step := none, source := some l, target := some 0 } (.empty l 0)
  if chain s l = [] then finishWith s1 .listEmpty (out8 l.val ++ out16 0) else s1

/-- The taking of a LIST-LENGTH (R30). -/
def beginLength (s : State) (tag : Byte) (l : ListNo) (t : Nat) : State :=
  begin_ s tag { kind := some .listLength, step := none, source := some l, target := none } (.length l t)

end Machine

end Sys2Proof
end

