-- ==== Sys2Proof/Machine/Protection.lean ====
section
/-! DEFINITION. The protection unit (spec 08): chest reports, latched faults, escalation, wind, FAULT-CLEAR and FAULT alerts. -/

namespace Sys2Proof

namespace Machine

/-- `s` with the fault record of `d` replaced. -/
def withFault (s : State) (d : Division) (r : Option FaultRec) : State :=
  s.withProt { s.prot with faults := s.prot.faults.set d r }

/-- Posts a FAULT alert with the protection state as it stands after the change (R157). -/
def postFault (s : State) (c : FaultCause) (d : Option Division) (k : Option Key) : State :=
  postAlert s (.fault c d k (latchedSet s) (protectionByte s) s.partTime)

/-- The cause a report of a kind gives (R157). -/
def FaultKind.cause : FaultKind → FaultCause
  | .cipher => .cipher
  | .driver => .driver

/-- The escalation (R152): the flag is set, the active registration becomes none, play is stopped. -/
def escalate (s : State) : State :=
  let s1 := s.withProt { s.prot with escalated := true }
  clearRegistration (stopIfPlaying s1)

/-- Another division's record is LATCHED (R152). -/
def otherLatched (s : State) (d : Division) : Bool := Division.all.any fun e => decide (e ≠ d) && latched s e

/-- Steps 2 and 3 of R151 after the record is set: a division not already under override is purged, its stops are withdrawn. -/
def withdrawDivision (s : State) (d : Division) (already : Bool) : State :=
  reformStops (if already then s else purge s d)

/-- A report that latches division `d` (R151). A registration switch that the purge lets be made is made after the five steps, and so
not in an escalation (note 40). -/
def latchFault (s : State) (d : Division) (r : FaultRec) : State :=
  let s1 := withdrawDivision (withFault s d (some r)) d (overridden s d)
  let s2 := if otherLatched s d then escalate s1 else s1
  waitingSwitches (postFault s2 r.kind.cause (some d) r.key)

/-- A CIPHER or DRIVER report on division `d` (R151, R153): a CLEAR record latches; a LATCHED one takes the report's kind and key,
and an alert is posted when either differs. -/
def reportFault (s : State) (d : Division) (r : FaultRec) : State :=
  match s.prot.faults.get d with
  | none => latchFault s d r
  | some old => if old = r then s else postFault (withFault s d (some r)) r.kind.cause (some d) r.key

/-- A WIND-LOW report (R154): every division not already under override is purged, Pedal, Great, Swell, Positive in turn (note 33 for
the order of their markers). A registration switch that the purges let be made is made after all of them and the alert (note 46). -/
def windLow (s : State) : State :=
  if s.prot.windLow then s
  else
    let s1 := s.withProt { s.prot with windLow := true }
    let s2 := Division.all.foldl (fun a d => if overridden s d then a else purge a d) s1
    waitingSwitches (postFault s2 .windLow none none)

/-- Each division of a list that has left override is resumed (R145). -/
def resumeFreed (ds : List Division) (before_ s : State) : State :=
  ds.foldl (fun a d => if overridden before_ d && !overridden a d then resumeDivision a d else a) s

/-- A WIND-OK report (R155). -/
def windOk (s : State) : State :=
  if s.prot.windLow then
    postFault (resumeFreed Division.all s (s.withProt { s.prot with windLow := false })) .windOk none none
  else s

/-- FAULT-CLEAR of the divisions `ds` (R156); `named` is the division the alert names, none for ALL. -/
def clearFaults (s : State) (ds : List Division) (named : Option Division) : State :=
  if ds.any (latched s) then
    let s1 := ds.foldl (fun a d => withFault a d none) s
    let s2 := if anyLatched s1 then s1 else s1.withProt { s1.prot with escalated := false }
    postFault (resumeFreed ds s (reformStops s2)) .clear named none
  else s

/-- The fault record a CIPHER report with key byte `k` gives on division `d` (R150: a key out of range is none). -/
def cipherRec (d : Division) (k : Nat) : FaultRec := { kind := .cipher, key := key? d k }

/-- The fault record a DRIVER report gives (R150). -/
def driverRec : FaultRec := { kind := .driver, key := none }

/-- A frame is handed to the upstream forward queue, or discarded when 8 wait (R167). -/
def forwardUp (s : State) (bytes : List Byte) : State :=
  if s.relay.forward.length < Config.forwardMax then s.withRelay { s.relay with forward := s.relay.forward ++ [bytes] }
  else s

/-- A report kind of the table of R150. -/
def knownReport (kind : Nat) : Bool := decide (1 ≤ kind) && decide (kind ≤ 4)

/-- A CHEST frame that downstream receive has taken (R150): the protection unit reads it when its kind is the row's, then it is
forwarded unchanged. A kind outside the table is passed over and forwarded (note 9). A frame of another row's kind is no frame of
this command (note 1). -/
def chestFrame (s : State) (bytes : List Byte) (kind : Nat) (act : State → Nat → Nat → State) : State :=
  if receivesDown s then
    match takeDownstream bytes kindChest with
    | some f =>
      if byteAt f.payload 0 = kind then forwardUp (act s f.addr (byteAt f.payload 1)) bytes
      else if knownReport (byteAt f.payload 0) then s
      else forwardUp s bytes
    | none => s
  else s

/-- What a CIPHER or DRIVER report does: an address that names no division is passed over (R150). -/
def faultReport (rec_ : Division → Nat → FaultRec) (s : State) (addr key : Nat) : State :=
  match Division.ofNum? addr with
  | some d => reportFault s d (rec_ d key)
  | none => s

end Machine

end Sys2Proof
end

