-- ==== Sys2Proof/Machine/Reset.lean ====
section
/-! DEFINITION. The full reset (spec 09 R169 to R171, and each block's own reset rule), its end, and the release of bypass. -/

namespace Sys2Proof

namespace Machine

/-- A full reset of cause `c` begins (R170, R171, R183): every block at its values after a full reset, every frame abandoned, the
bypass line asserted. Part time, the straps and the waiting commands stand; the latched straps stand until the end (R169, note
8). -/
def beginReset (s : State) (c : ResetCause) : State :=
  { s with
    relay := Relay.inReset s.relay.node
    handler := Handler.reset c
    store := Store.reset
    ctl := Controller.reset
    tables := Tables.reset s.detector.fourChannels
    detector := Detector.reset s.detector.fourChannels
    clock := Clock.reset
    follower := Follower.reset
    sched := Sched.reset
    prot := Protection.reset }

/-- The full reset ends with the straps at these levels (R169, R170): the node number and the channel count are latched, and with the
channel count the channel masks of the plan (R36); part time is 0. -/
def endReset (s : State) (straps : BitVec 4) (four : Bool) : State :=
  { s with
    partTime := 0
    pins := { nodeStraps := straps, fourChannels := four, resetLine := false }
    relay := { s.relay with node := straps, resetting := false }
    tables := { s.tables with plan := Vector.replicate 64 (PlanEntry.reset four) }
    detector := Detector.reset four }

/-- POWER_ON (R170, R183). -/
def execPowerOn (s : State) : Host.Outcome State Fault Refusal := .next (beginReset s .power)

/-- RESET_INPUT (R170, R183): the line is asserted. -/
def execResetInput (s : State) : Host.Outcome State Fault Refusal :=
  .next (beginReset (s.withPins { s.pins with resetLine := true }) .line)

/-- RESET_END (R169, R170): outside a full reset nothing ends (note 1). -/
def execResetEnd (straps : BitVec 4) (four : Bool) (s : State) : Host.Outcome State Fault Refusal :=
  .next (if s.relay.resetting then endReset s straps four else s)

/-- BYPASS_RELEASE (R170): after the reset has ended, at the first idle of upstream receive. -/
def execBypassRelease (s : State) : Host.Outcome State Fault Refusal :=
  .next (if s.relay.resetting then s else s.withRelay { s.relay with bypass := false })

/-- DOWNSTREAM_RECEIVE_START (R170): at the first idle of downstream receive after the release of bypass. -/
def execDownstreamReceiveStart (s : State) : Host.Outcome State Fault Refusal :=
  .next (if s.relay.resetting || s.relay.bypass then s else s.withRelay { s.relay with downReceiving := true })

end Machine

end Sys2Proof
end

