-- ==== Sys2Proof/Machine/Relay.lean ====
section
/-! DEFINITION. The relay path (spec 09): frames taken from the two receive lanes, chest reports as they pass, and the two
transmitters. -/

namespace Sys2Proof

namespace Machine

/-! ### Upstream receive (R159, R160, R162, R166, R173) -/

/-- A console key image is replaced and its frame marked due (R162). -/
def takeKeys (s : State) (d : Division) (image : BitVec 64) : State :=
  markDue (s.withRelay { s.relay with consoleKeys := s.relay.consoleKeys.set d image }) (.keys d)

/-- The console stop image is replaced and the stop frame marked due (R162). -/
def takeStops (s : State) (image : BitVec 48) : State :=
  markDue (s.withRelay { s.relay with consoleStops := image }) .stops

/-- A request enters the tail of the request buffer, or is discarded when 4 wait (R173). -/
def bufferRequest (s : State) (payload : List Byte) : State :=
  if s.handler.buffer.length < Config.bufferMax then
    s.withHandler { s.handler with buffer := s.handler.buffer ++ [payload] }
  else s

/-- How many pass-through frames wait (R166). -/
def passCount (q : List DownItem) : Nat :=
  (q.filter fun x => match x with
    | .pass _ => true
    | .marker _ => false).length

/-- A MANAGE frame for another node enters the downstream queue, or is discarded when 8 wait (R166). -/
def passThrough (s : State) (bytes : List Byte) : State :=
  if passCount s.relay.downQueue < Config.passMax then
    s.withRelay { s.relay with downQueue := s.relay.downQueue ++ [.pass bytes] }
  else s

/-- A MANAGE frame taken on upstream receive (R160). -/
def takeManage (s : State) (f : Frame) (bytes : List Byte) : State :=
  if f.addr = s.relay.node.toNat then bufferRequest s f.payload else passThrough s bytes

/-- A frame of kind `k` taken on upstream receive; one that fails R159, or is of another kind, is no frame of the command (note
1). -/
def fromUpstream (s : State) (bytes : List Byte) (k : Nat) (act : Frame → State) : State :=
  if linesOpen s then
    match takeUpstream bytes k with
    | some f => act f
    | none => s
  else s

/-- CONSOLE_KEYS_FRAME (R162). -/
def execConsoleKeysFrame (bytes : List Byte) (s : State) : Host.Outcome State Fault Refusal :=
  .next (fromUpstream s bytes kindKeys fun f =>
    match Division.ofNum? f.addr with
    | some d => takeKeys s d (imageOfPayload f.payload)
    | none => s)

/-- CONSOLE_STOPS_FRAME (R162). -/
def execConsoleStopsFrame (bytes : List Byte) (s : State) : Host.Outcome State Fault Refusal :=
  .next (fromUpstream s bytes kindStops fun f => takeStops s (stopsOfPayload f.payload))

/-- MANAGE_FRAME (R160, R166, R173). -/
def execManageFrame (bytes : List Byte) (s : State) : Host.Outcome State Fault Refusal :=
  .next (fromUpstream s bytes kindManage fun f => takeManage s f bytes)

/-! ### Downstream receive (R159, R161, R167) -/

/-- A REPLY or ALERT frame of a node further down is forwarded as it stands (R161). -/
def fromDownstream (s : State) (bytes : List Byte) (k : Nat) : State :=
  if receivesDown s then
    match takeDownstream bytes k with
    | some _ => forwardUp s bytes
    | none => s
  else s

/-- CIPHER (R150, R151, R153). -/
def execCipher (bytes : List Byte) (s : State) : Host.Outcome State Fault Refusal :=
  .next (chestFrame s bytes 1 (faultReport cipherRec))

/-- DRIVER (R150, R151, R153). -/
def execDriver (bytes : List Byte) (s : State) : Host.Outcome State Fault Refusal :=
  .next (chestFrame s bytes 2 (faultReport fun _ _ => driverRec))

/-- WIND_LOW (R154): address and key are not used. -/
def execWindLow (bytes : List Byte) (s : State) : Host.Outcome State Fault Refusal :=
  .next (chestFrame s bytes 3 fun x _ _ => windLow x)

/-- WIND_OK (R155): address and key are not used. -/
def execWindOk (bytes : List Byte) (s : State) : Host.Outcome State Fault Refusal :=
  .next (chestFrame s bytes 4 fun x _ _ => windOk x)

/-- DOWNSTREAM_REPLY (R161). -/
def execDownstreamReply (bytes : List Byte) (s : State) : Host.Outcome State Fault Refusal :=
  .next (fromDownstream s bytes kindReply)

/-- DOWNSTREAM_ALERT (R161). -/
def execDownstreamAlert (bytes : List Byte) (s : State) : Host.Outcome State Fault Refusal :=
  .next (fromDownstream s bytes kindAlert)

/-- DOWNSTREAM_FRAME_DISCARD (R159): not read, not forwarded, not counted. -/
def execDownstreamFrameDiscard (_ : List Byte) (s : State) : Host.Outcome State Fault Refusal := .next s

/-! ### The downstream transmitter (R163, R164) -/

/-- The image a key frame of `d` carries: the console's, united with the playback image when the mode merges them (R164). -/
def sentKeys (s : State) (d : Division) : BitVec 64 :=
  s.relay.consoleKeys.get d ||| (if merges s.follower.mode then playImage s d else 0)

/-- The image the stop frame carries (R164). -/
def sentStops (s : State) : BitVec 48 :=
  s.relay.consoleStops ||| (if merges s.follower.mode then s.sched.stopImage else 0)

/-- The frame formed for a downstream item at the moment it is taken (R164). -/
def formItem (s : State) : DownItem → List Byte
  | .pass bytes => bytes
  | .marker (.keys d) => formFrame kindKeys d.num (outBytes 8 (sentKeys s d).toNat)
  | .marker .stops => formFrame kindStops 0 (outBytes 6 (sentStops s).toNat)

/-- The downstream transmitter takes the head of its queue when its lane is free (R164). -/
def takeDown (s : State) : State :=
  match linesOpen s, s.relay.downLane, s.relay.downQueue with
  | true, none, item :: rest => s.withRelay { s.relay with downQueue := rest, downLane := some (formItem s item) }
  | _, _, _ => s

/-- DOWNSTREAM_TAKE (R164). -/
def execDownstreamTake (s : State) : Host.Outcome State Fault Refusal := .next (takeDown s)

/-- DOWNSTREAM_SEND_DONE (R164): the lane becomes free. -/
def execDownstreamSendDone (s : State) : Host.Outcome State Fault Refusal :=
  .next (s.withRelay { s.relay with downLane := none })

/-! ### The upstream transmitter (R168, R186, R24) -/

/-- A reply that waits with the handler goes into the empty slot (R174). -/
def placeWaiting (s : State) : State :=
  match s.relay.slot, s.handler.waiting with
  | none, some r => (s.withRelay { s.relay with slot := some r }).withHandler { s.handler with waiting := none }
  | _, _ => s

/-- The reply slot has emptied: the controller's reply is placed first, else the handler's (R24, R175). -/
def refillSlot (s : State) : State := placeWaiting (placeCtlReply s)

/-- The reply is that of a RESET, whose last byte begins the full reset (R171). -/
def isResetReply (r : Reply) : Bool := decide (r.code = 114#8) && decide (r.result = .done)

/-- The transmitter takes the reply in the slot (R168): the frame is formed, the alerts-lost flag cleared where R186 says so. -/
def takeReply (s : State) (r : Reply) : State :=
  let frame : UpFrame :=
    { bytes := formFrame kindReply s.relay.node.toNat (outReply r), endsInReset := isResetReply r }
  let s1 := s.withRelay { s.relay with slot := none, upLane := some frame }
  refillSlot (if r.clearsLost then s1.withHandler { s1.handler with alertsLost := false } else s1)

/-- The transmitter takes an alert (R168, R185). -/
def takeAlert (s : State) (a : Alert) (rest : List Alert) : State :=
  (s.withRelay { s.relay with
    upLane := some { bytes := formFrame kindAlert s.relay.node.toNat (outAlert a), endsInReset := false } }).withHandler
      { s.handler with alerts := rest }

/-- The upstream transmitter's choice (R168): forwarded frames, then the reply, then alerts. -/
def takeUp (s : State) : State :=
  match linesOpen s, s.relay.upLane with
  | true, none =>
    match s.relay.forward, s.relay.slot, s.handler.alerts with
    | f :: rest, _, _ =>
      s.withRelay { s.relay with forward := rest, upLane := some { bytes := f, endsInReset := false } }
    | [], some r, _ => takeReply s r
    | [], none, a :: rest => takeAlert s a rest
    | [], none, [] => s
  | _, _ => s

/-- UPSTREAM_TAKE (R168). -/
def execUpstreamTake (s : State) : Host.Outcome State Fault Refusal := .next (takeUp s)

/-- The last byte of an upstream frame has been sent (R168, R171): the lane is free, and a full reset begins after the RESET
reply. -/
def sentUp (s : State) : State :=
  match s.relay.upLane with
  | some f => if f.endsInReset then beginReset s .command else s.withRelay { s.relay with upLane := none }
  | none => s

/-- UPSTREAM_SEND_DONE (R171). -/
def execUpstreamSendDone (s : State) : Host.Outcome State Fault Refusal := .next (sentUp s)

end Machine

end Sys2Proof
end

