-- ==== Sys2Proof/Machine/Detector.lean ====
section
/-! DEFINITION. The onset detector (spec 05): level frames, gap fill and histories (R81 to R85), firing (R87, R88), the gather
(R90, R91), the cutoff state (R94), the stale timer and the boost (R84, R89). -/

namespace Sys2Proof

namespace Machine

/-- Channel `c` of the detector. -/
def channel (s : State) (c : Fin 4) : Channel := vget s.detector.channels c

/-- The available channels, in order (R38). -/
def availableChannels (s : State) : List (Fin 4) := (List.finRange 4).filter fun c => (available s).getLsbD c.val

/-- `s` with every available channel rewritten. -/
def mapChannels (s : State) (f : Fin 4 → Channel → Channel) : State :=
  s.withDetector { s.detector with
    channels := (availableChannels s).foldl (fun v c => vset v c (f c (vget v c))) s.detector.channels }

/-- The number of missing frames between two sequence numbers (R82). -/
def missingFrames (last seq : Byte) : Nat := (seq - last - 1).toNat

/-- Gap fill (R82): the last good level entered `m` times. -/
def fillGap (m : Nat) (h : List Nat) : List Nat :=
  match h with
  | l :: _ => (List.replicate m l ++ h).take 9
  | [] => []

/-- A new level enters the history and the oldest leaves (R83). -/
def enterLevel (l : Nat) (h : List Nat) : List Nat := (l :: h).take 9

/-- Steps 1 and 2 of R86 for a FRESH pickup: gap fill from `last`, then the frame's levels. -/
def enterFrame (s : State) (last seq : Byte) (levels : List Nat) : State :=
  let s1 := mapChannels s fun c ch =>
    { ch with history := enterLevel (levels.getD c.val 0) (fillGap (missingFrames last seq) ch.history) }
  s1.withDetector { s1.detector with seq := some seq, lastArrival := some s.partTime }

/-- The first good frame of a STALE pickup (R85): FRESH, the histories filled whole, a PICKUP alert. -/
def freshen (s : State) (seq : Byte) (levels : List Nat) : State :=
  let s1 := mapChannels s fun c ch => { ch with history := List.replicate 9 (levels.getD c.val 0) }
  postAlert (s1.withDetector { s1.detector with fresh := true, seq := some seq, lastArrival := some s.partTime })
    (.pickup false s.partTime)

/-- The onset an open gather delivers (R91). -/
def gatherOnset (g : Gather) : Onset := { time := g.time, strength := min 255 g.strength, channels := g.channels }

/-- Step 3 of R86: a gather open for 2,000 tu closes; its onset replaces the last-onset record (R93) and is delivered (R91). -/
def closeGather (s : State) : State :=
  match s.detector.gather with
  | some g =>
    if Config.gatherSpan ≤ tdiff s.partTime g.opened then
      let o := gatherOnset g
      deliverOnset (s.withDetector { s.detector with
        gather := none, lastOnset := some { onset := o, delivered := s.partTime, qualified := qualified s o } }) o
    else s
  | none => s

/-- Step 4 of R86: a REFRACTORY channel whose end has come becomes ARMED (R87). -/
def endRefractory (now : PartTime) (ch : Channel) : Channel :=
  match ch.state with
  | .refractory e => if due now e then { ch with state := .armed } else ch
  | .armed => ch

/-- The rise of a channel over the rise span (R83). -/
def rise (s : State) (ch : Channel) : Int := (ch.history.getD 0 0 : Int) - (ch.history.getD s.tables.pickup.span 0 : Int)

/-- The effective threshold now (R88): Th, with the bleed boost before boost-until. -/
def effectiveThreshold (s : State) : Nat :=
  s.tables.pickup.threshold + (match s.detector.boostUntil with
    | some b => if tdiff s.partTime b < 0 then s.tables.pickup.boost else 0
    | none => 0)

/-- The mask that decides which channels are eligible (R92): that of an open gather, else the applicable one. -/
def firingMask (s : State) : BitVec 4 :=
  match s.detector.gather with
  | some g => g.mask
  | none => applicableMask s

/-- Channel `c` is eligible and fires (R87, R88). -/
def fires (s : State) (c : Fin 4) : Bool :=
  let ch := channel s c
  decide (ch.state = .armed) && (firingMask s).getLsbD c.val && decide ((effectiveThreshold s : Int) ≤ rise s ch)
    && decide (s.tables.pickup.gate ≤ ch.history.getD 0 0)

/-- The channel onset time of a firing now: the arrival less the pickup latency (R88). -/
def channelOnset (s : State) : PartTime := after s.partTime (-(s.tables.pickup.latency : Int))

/-- The largest rise among the channels that fire, as a strength (R90). -/
def firingStrength (s : State) (cs : List (Fin 4)) : Nat := largest (cs.map fun c => (rise s (channel s c)).toNat)

/-- A firing on channels `cs` opens a gather or joins the open one (R90). -/
def gatherWith (s : State) (cs : List (Fin 4)) : Gather :=
  let set := bitsOf 4 (cs.map Fin.val)
  match s.detector.gather with
  | some g =>
    { g with
      channels := g.channels ||| set
      time := if tdiff (channelOnset s) g.time < 0 then channelOnset s else g.time
      strength := max g.strength (firingStrength s cs) }
  | none =>
    { opened := s.partTime, mask := applicableMask s, channels := set, time := channelOnset s
      strength := firingStrength s cs }

/-- Step 5 of R86: every eligible channel is tested; those that fire become REFRACTORY and gather (R87, R88, R90). -/
def testFiring (s : State) : State :=
  match (availableChannels s).filter (fires s) with
  | [] => s
  | cs =>
    let endAt := after s.partTime (s.tables.pickup.refractory : Int)
    let s1 := s.withDetector { s.detector with gather := some (gatherWith s cs) }
    mapChannels s1 fun c ch => if cs.contains c then { ch with state := .refractory endAt } else ch

/-- The largest level among the available channels in the current mask (R94). -/
def loudest (s : State) : Nat :=
  largest (((availableChannels s).filter fun c => (applicableMask s).getLsbD c.val).map fun c =>
    (channel s c).history.getD 0 0)

/-- `s` with its cutoff state replaced. -/
def withCutoff (s : State) (c : CutoffState) : State := s.withDetector { s.detector with cutoff := c }

/-- Step 6 of R86: the cutoff state moves by the table of R94, and a cutoff may be delivered (R95). -/
def updateCutoff (s : State) : State :=
  if s.tables.pickup.cutoffLevel ≤ loudest s then withCutoff s .sounding
  else match s.detector.cutoff with
    | .quiet => s
    | .sounding => withCutoff s (.falling s.partTime)
    | .falling t =>
      if (s.tables.pickup.cutoffHold : Int) ≤ tdiff s.partTime t then
        deliverCutoff (withCutoff s .quiet) { completed := s.partTime, belowSince := t }
      else s

/-- Steps 3 to 6 of R86. Steps 5 and 6 read the mask as it stands after the onset of step 3 (note 42). -/
def handleFrame (s : State) : State :=
  let s1 := closeGather s
  updateCutoff (testFiring (mapChannels s1 fun _ ch => endRefractory s1.partTime ch))

/-- A level frame that has passed the first three conditions of R81: a repeat is discarded, a good frame handled (R85, R86). -/
def takeLevels (s : State) (seq : Byte) (levels : List Nat) : State :=
  if s.detector.fresh then
    match s.detector.seq with
    | some last => if seq = last then s else handleFrame (enterFrame s last seq levels)
    | none => handleFrame (enterFrame s seq seq levels)
  else handleFrame (freshen s seq levels)

/-- The stale timer has expired (R84). -/
def staleDue (s : State) : Bool :=
  s.detector.fresh && (match s.detector.lastArrival with
    | some t => decide (Config.staleSpan ≤ tdiff s.partTime t)
    | none => false)

/-- The part time at which the stale timer expires (R84). -/
def staleTime (s : State) : PartTime :=
  match s.detector.lastArrival with
  | some t => after t Config.staleSpan
  | none => s.partTime

/-- Every channel ARMED, the gather discarded, the cutoff state QUIET (R84, R98). -/
def restDetector (s : State) : State :=
  let s1 := mapChannels s fun _ ch => { ch with state := .armed }
  s1.withDetector { s1.detector with gather := none, cutoff := .quiet }

/-- STALE_TIMER_EXPIRY (R84): the timer stops, the sequence number is forgotten, a PICKUP alert is posted. -/
def becomeStale (s : State) : State :=
  let s1 := restDetector s
  postAlert (s1.withDetector { s1.detector with fresh := false, seq := none, lastArrival := none })
    (.pickup true (staleTime s))

/-- Part time has reached boost-until (R89). -/
def boostDue (s : State) : Bool :=
  match s.detector.boostUntil with
  | some b => due s.partTime b
  | none => false

/-- BOOST_EXPIRY (R89). -/
def endBoost (s : State) : State := s.withDetector { s.detector with boostUntil := none }

/-- RESTART's effect on the detector (R98). -/
def restartDetector (s : State) : State := endBoost (restDetector s)

end Machine

end Sys2Proof
end

