-- ==== Sys2Proof/Machine/Requests.lean ====
section
/-! DEFINITION. The request handler (spec 10): taking the request at the head of the buffer, its reply, and the meaning of every
request row. -/

namespace Sys2Proof

namespace Machine

/-! ### Taking and answering (R174, R175) -/

/-- What carrying out a request answers: the state after it, and the result and data of the handler's reply; none where the list
controller will reply (R174). -/
abbrev Answer := State × Option (Result × List Byte)

/-- DONE with its data (R175). -/
def done (s : State) (data : List Byte) : Answer := (s, some (.done, data))

/-- A refusal: nothing changes, and the reply carries no data (R175, R176). -/
def refuse (s : State) (r : Result) : Answer := (s, some (r, []))

/-- The handler may take a request (R174), outside a full reset. -/
def handlerFree (s : State) : Bool := s.handler.waiting.isNone && !s.handler.resetTaken && !s.relay.resetting

/-- The handler's reply goes into the reply slot when it is empty, else it waits with the handler (R174). -/
def placeReply (s : State) (r : Reply) : State :=
  match s.relay.slot with
  | none => s.withRelay { s.relay with slot := some r }
  | some _ => s.withHandler { s.handler with waiting := some r }

/-- The reply of a request is built and placed; `marks` says that its taking clears the alerts-lost flag (R186). -/
def answer (a : Answer) (tag code : Byte) (marks : Bool) : State :=
  match a.2 with
  | some (r, data) => placeReply a.1 { tag := tag, code := code, result := r, data := data, clearsLost := marks }
  | none => a.1

/-- `s` with the head of the request buffer taken off. -/
def withoutHead (s : State) : State := s.withHandler { s.handler with buffer := s.handler.buffer.tail }

/-- The request at the head of the buffer is taken when it is one of row `row` (R174): `act` carries it out with its tag and its
arguments. With no such request to take nothing happens (note 1). -/
def take (s : State) (row : Instr) (act : State → Byte → List Byte → Answer) (marks : State → Bool) : State :=
  match s.handler.buffer with
  | (tag :: code :: args) :: _ =>
    if handlerFree s ∧ requestRow (tag :: code :: args) = row then
      answer (act (withoutHead s) tag args) tag code (marks s)
    else s
  | _ => s

/-- No reply of a request other than STATUS clears the alerts-lost flag (R186). -/
def noMark : State → Bool := fun _ => false

/-! ### Tables (spec 03, 05, 07) -/

/-- A stop number 0..47. -/
def stopNo? (n : Nat) : Option (Fin 48) := if h : n < 48 then some ⟨n, h⟩ else none

/-- STOP-PUT (R50). -/
def putStop (s : State) (_ : Byte) (args : List Byte) : Answer :=
  match stopNo? (byteAt args 0), Division.ofNum? (byteAt args 1) with
  | some n, some d =>
    let e : StopEntry := { division := d, speechLead := min (wordAt args 2) 20000, bleed := min (wordAt args 4) 25000 }
    done (reformStops (s.withTables { s.tables with stops := vset s.tables.stops n e })) (outStopEntry n.val e)
  | _, _ => refuse s .range

/-- STOP-GET (R50). -/
def getStop (s : State) (_ : Byte) (args : List Byte) : Answer :=
  match stopNo? (byteAt args 0) with
  | some n => done s (outStopEntry n.val (vget s.tables.stops n))
  | none => refuse s .range

/-- The data of DIV-PUT and DIV-GET: division, chamber delay. -/
def outDelay (d : Division) (v : Nat) : List Byte := out8 d.num ++ out16 v

/-- DIV-PUT (R51). -/
def putDelay (s : State) (_ : Byte) (args : List Byte) : Answer :=
  match Division.ofNum? (byteAt args 0) with
  | some d =>
    let v := min (wordAt args 1) 10000
    done (s.withTables { s.tables with chamber := s.tables.chamber.set d v }) (outDelay d v)
  | none => refuse s .range

/-- DIV-GET (R51). -/
def getDelay (s : State) (_ : Byte) (args : List Byte) : Answer :=
  match Division.ofNum? (byteAt args 0) with
  | some d => done s (outDelay d (s.tables.chamber.get d))
  | none => refuse s .range

/-- REG-PUT (R45); the stop image is formed afresh when the set is active (R46). -/
def putSet (s : State) (_ : Byte) (args : List Byte) : Answer :=
  let stops := (args.drop 2).map BitVec.toNat
  match setNo? (byteAt args 0), stops.all fun n => decide (n < 48) with
  | some k, true =>
    let b := bitsOf 48 stops
    let s1 := s.withTables { s.tables with sets := vset s.tables.sets k b }
    done (if s.sched.active = some k then reformStops s1 else s1) (outSet k b)
  | _, _ => refuse s .range

/-- REG-GET (R45). -/
def getSet (s : State) (_ : Byte) (args : List Byte) : Answer :=
  match setNo? (byteAt args 0) with
  | some k => done s (outSet k (vget s.tables.sets k))
  | none => refuse s .range

/-- Entry `i` is the current or the engaged next entry (R44). -/
def entryInPlay (s : State) (i : EntryNo) : Bool :=
  decide (s.follower.current = some i) || decide (engagedIndex s = some i)

/-- PLAN-PUT (R37, R44); the stop point may depend on the entry's start kind (R103). -/
def putPlan (s : State) (_ : Byte) (args : List Byte) : Answer :=
  match entryNo? (byteAt args 0), planEntry? (available s) args with
  | some i, some e =>
    if entryInPlay s i then refuse s .playing
    else done (formStop (s.withTables { s.tables with plan := vset s.tables.plan i e })) (outPlanEntry i e)
  | _, _ => refuse s .range

/-- PLAN-GET (R36). -/
def getPlan (s : State) (_ : Byte) (args : List Byte) : Answer :=
  match entryNo? (byteAt args 0) with
  | some i => done s (outPlanEntry i (planEntry s i))
  | none => refuse s .range

/-- A plan size that would cut off the current or the engaged next entry (R44). -/
def sizeInPlay (s : State) (n : Nat) : Bool :=
  match s.follower.current with
  | some c => decide (n ≤ c.val) || (s.follower.next.isSome && decide (n ≤ c.val + 1))
  | none => false

/-- PLAN-SIZE (R43, R44); the stop point depends on the plan size (R103). -/
def putSize (s : State) (_ : Byte) (args : List Byte) : Answer :=
  let n := byteAt args 0
  if 64 < n then refuse s .range
  else if sizeInPlay s n then refuse s .playing
  else done (formStop (s.withTables { s.tables with planSize := n })) (out8 n)

/-- The period is outside the range of the follow profile (R63). -/
def periodOutside (s : State) : Bool :=
  decide (s.clock.period < s.tables.follow.pmin) || decide (s.tables.follow.pmax < s.clock.period)

/-- FOLLOW-PUT (R179, R63). -/
def putFollow (s : State) (_ : Byte) (args : List Byte) : Answer :=
  match followProfile? args with
  | some p =>
    let s1 := s.withTables { s.tables with follow := p }
    done (if periodOutside s1 then applyPeriod s1 s1.clock.period else s1) (outFollow p)
  | none => refuse s .range

/-- FOLLOW-GET (R179). -/
def getFollow (s : State) (_ : Byte) (_ : List Byte) : Answer := done s (outFollow s.tables.follow)

/-- PICKUP-PUT (R96). -/
def putPickup (s : State) (_ : Byte) (args : List Byte) : Answer :=
  done (s.withTables { s.tables with pickup := pickupProfile args }) (outPickup (pickupProfile args))

/-- PICKUP-GET (R96). -/
def getPickup (s : State) (_ : Byte) (_ : List Byte) : Answer := done s (outPickup s.tables.pickup)

/-- SOUND-PUT (R147). -/
def putSound (s : State) (_ : Byte) (args : List Byte) : Answer :=
  let g := min (wordAt args 0) 10000
  done (s.withTables { s.tables with gap := g }) (out16 g)

/-- SOUND-GET (R147). -/
def getSound (s : State) (_ : Byte) (_ : List Byte) : Answer := done s (out16 s.tables.gap)

/-! ### Lists (spec 02) -/

/-- A structural request is answered BUSY unless the phase is READY (R18). -/
def whenReady (s : State) (a : Answer) : Answer := if s.ctl.phase = .ready then a else refuse s .busy

/-- The controller has taken the command and will reply (R18). -/
def handed (s : State) : Answer := (s, none)

/-- STEP-NEW (R19, R20, R25). -/
def newStep (s : State) (tag : Byte) (args : List Byte) : Answer :=
  whenReady s (match phraseList? (byteAt args 0), musical? 1 args with
    | some l, some m =>
      if listLocked s l then refuse s .playing
      else match chain s 0 with
        | n :: _ => handed (beginNew s tag n l m)
        | [] => refuse s .emptyPool
    | _, _ => refuse s .range)

/-- A step that a structural request may name: 0..2047, not standing in list 0 (R19). -/
def usedStep? (s : State) (n : Nat) : Option StepNo := (stepNo? n).filter fun k => decide ((stepRec s k).list ≠ 0)

/-- STEP-SET (R19, R20, R26). -/
def setStep (s : State) (tag : Byte) (args : List Byte) : Answer :=
  whenReady s (match usedStep? s (wordAt args 0), musical? 2 args with
    | some n, some m =>
      if listLocked s (stepRec s n).list then refuse s .playing else handed (beginSet s tag n m)
    | _, _ => refuse s .range)

/-- STEP-MOVE (R19, R20, R27). -/
def moveStep (s : State) (tag : Byte) (args : List Byte) : Answer :=
  whenReady s (match usedStep? s (wordAt args 0), phraseList? (byteAt args 2) with
    | some n, some l =>
      if listLocked s (stepRec s n).list || listLocked s l then refuse s .playing else handed (beginMove s tag n l)
    | _, _ => refuse s .range)

/-- STEP-FREE (R19, R20, R28). -/
def freeStep (s : State) (tag : Byte) (args : List Byte) : Answer :=
  whenReady s (match usedStep? s (wordAt args 0) with
    | some n => if listLocked s (stepRec s n).list then refuse s .playing else handed (beginFree s tag n)
    | none => refuse s .range)

/-- LIST-EMPTY (R19, R20, R29). -/
def emptyList (s : State) (tag : Byte) (args : List Byte) : Answer :=
  whenReady s (match phraseList? (byteAt args 0) with
    | some l => if listLocked s l then refuse s .playing else handed (beginEmpty s tag l)
    | none => refuse s .range)

/-- LIST-LENGTH (R19, R20, R30). -/
def setLength (s : State) (tag : Byte) (args : List Byte) : Answer :=
  whenReady s (match phraseList? (byteAt args 0) with
    | some l =>
      if 32768 < wordAt args 1 then refuse s .range
      else if listLocked s l then refuse s .playing
      else handed (beginLength s tag l (wordAt args 1))
    | none => refuse s .range)

/-- STEP-GET (R31): BUSY for the involved step and for a step that stands in an involved list. -/
def getStep (s : State) (_ : Byte) (args : List Byte) : Answer :=
  match stepNo? (wordAt args 0) with
  | some n =>
    if s.ctl.cmd.step = some n ∨ involved s (stepRec s n).list then refuse s .busy else done s (outStepRecord s n)
  | none => refuse s .range

/-- LIST-GET (R31): BUSY for an involved list. -/
def getList (s : State) (_ : Byte) (args : List Byte) : Answer :=
  match listNo? (byteAt args 0) with
  | some l =>
    if 2047 < wordAt args 1 then refuse s .range
    else if involved s l then refuse s .busy
    else done s (outListRun s l (wordAt args 1))
  | none => refuse s .range

/-! ### Play control (spec 06, 04, 03, 10) -/

/-- MODE (R124). -/
def modeRequest (s : State) (_ : Byte) (args : List Byte) : Answer :=
  match Mode.ofCode? (byteAt args 0) with
  | some m => done (requestMode s m) (out8 (modeByte (requestMode s m)))
  | none => refuse s .range

/-- The period a START carries, if it carries one (R100, R188). -/
def startArg (args : List Byte) : Option Nat := if args.length = 4 then period? (longAt args 0) else none

/-- START (R100): the checks in their order, then play. -/
def startRequest (s : State) (_ : Byte) (args : List Byte) : Answer :=
  if s.follower.mode = .off then refuse s .mode
  else if s.prot.escalated then refuse s .faulted
  else if s.follower.play ≠ .idle then refuse s .playing
  else if s.tables.planSize = 0 then refuse s .range
  else if involved s (planEntry s 0).list then refuse s .busy
  else done (startPlay s (startArg args)) (out32 (startPeriod s (startArg args)))

/-- FINISH (R120): DONE with the finish state after it. -/
def finishRequest (s : State) (_ : Byte) (_ : List Byte) : Answer :=
  done (finishPlay s) (out8 (finishPlay s).follower.finish.code)

/-- HALT (R180): DONE with the play state after it. -/
def haltRequest (s : State) (_ : Byte) (_ : List Byte) : Answer :=
  done (stopIfPlaying s) (out8 (stopIfPlaying s).follower.play.code)

/-- What a RELEASE does: it ends a hold or a wait (R118, R116). -/
def releasePlay (s : State) : State :=
  match s.follower.play with
  | .holding => releaseHold s
  | .waiting => endWait s .released
  | _ => s

/-- RELEASE (R118): DONE with the play state after it. -/
def releaseRequest (s : State) (_ : Byte) (_ : List Byte) : Answer :=
  done (releasePlay s) (out8 (releasePlay s).follower.play.code)

/-- A TEMPO now of period `p` (R64): any pending tempo is discarded and the period applied. -/
def tempoAtOnce (s : State) (p : Nat) : Answer :=
  done (applyPeriod (s.withClock { s.clock with pendingTempo := none }) p) (out32 (clampPeriod s p))

/-- TEMPO now, and a TEMPO whose timing names neither (R64, note 11). -/
def tempoNowRequest (s : State) (_ : Byte) (args : List Byte) : Answer :=
  match decide (byteAt args 0 = 0), period? (longAt args 1) with
  | true, some p => tempoAtOnce s p
  | _, _ => refuse s .range

/-- TEMPO next beat (R65): at once while IDLE, else stored clamped. -/
def tempoNextRequest (s : State) (_ : Byte) (args : List Byte) : Answer :=
  match period? (longAt args 1) with
  | some p =>
    if s.follower.play = .idle then tempoAtOnce s p
    else done (s.withClock { s.clock with pendingTempo := some (clampPeriod s p) }) (out32 (clampPeriod s p))
  | none => refuse s .range

/-- REG-NOW (R48). -/
def regNowRequest (s : State) (_ : Byte) (args : List Byte) : Answer :=
  match setOrNone? (byteAt args 0) with
  | some k => if s.follower.mode = .off then refuse s .mode else done (setActive s k) (outOpt8 (k.map Fin.val))
  | none => refuse s .range

/-- REPORT-RATE (R76). -/
def rateRequest (s : State) (_ : Byte) (args : List Byte) : Answer :=
  let n := min (byteAt args 0) 16
  done (s.withClock { s.clock with rate := n }) (out8 n)

/-- The divisions a FAULT-CLEAR names: one, or ALL, which 255 marks (R156, R188). -/
def faultDivisions? (n : Nat) : Option (List Division) :=
  if n = 255 then some Division.all else (Division.ofNum? n).map fun d => [d]

/-- FAULT-CLEAR (R156): DONE with the protection state after it. -/
def faultClearRequest (s : State) (_ : Byte) (args : List Byte) : Answer :=
  match faultDivisions? (byteAt args 0) with
  | some ds =>
    let s1 := clearFaults s ds (Division.ofNum? (byteAt args 0))
    done s1 (outFaults s1 ++ [protectionByte s1])
  | none => refuse s .range

/-- The phrase tick position (R78). -/
def phraseTick (s : State) : Int := (position s - s.follower.origin) / Config.tick

/-- STATUS (R184). -/
def statusRequest (s : State) (_ : Byte) (_ : List Byte) : Answer := done s (outStatus s (phraseTick s))

/-- What a RESTART does (R181, R126, R79, R98, R54): play stopped, registration dropped, clock stopped with beat count 0,
confidence reset, detector at rest, pending mode applied. -/
def restartPlay (s : State) : State :=
  let s1 := stopClock (clearRegistration (stopIfPlaying s)) true
  applyPendingMode (restartDetector (announce s.follower.conf (recoverConf s1)))

/-- RESTART (R181). -/
def restartRequest (s : State) (_ : Byte) (_ : List Byte) : Answer := done (restartPlay s) []

/-- RESET (R182): nothing more is taken; the full reset begins when the reply has been sent (R171). -/
def resetRequest (s : State) (_ : Byte) (_ : List Byte) : Answer :=
  done (s.withHandler { s.handler with resetTaken := true }) []

/-! ### Unknown requests (R176) -/

/-- The tag of the reply to a payload: its first byte, or a free value (R175, note 12). -/
def tagOf (s : State) (p : List Byte) : Byte :=
  match p with
  | t :: _ => t
  | [] => Config.freeTag s.freeCount

/-- The request code of the reply to a payload: its second byte, or a free value (R175, note 12). -/
def codeOf (s : State) (p : List Byte) : Byte :=
  match p with
  | _ :: c :: _ => c
  | _ => Config.freeCode s.freeCount

/-- A free value has been used when the payload holds fewer than two bytes. -/
def countFree (s : State) (p : List Byte) : State := if p.length < 2 then s.withFreeCount (s.freeCount + 1) else s

/-- A request whose code names no request, or whose arguments do not fit, is taken and answered UNKNOWN (R176). -/
def takeUnknown (s : State) : State :=
  match s.handler.buffer with
  | p :: _ =>
    if handlerFree s ∧ requestRow p = .unknownRequest then
      answer (refuse (countFree (withoutHead s) p) .unknown) (tagOf s p) (codeOf s p) false
    else s
  | [] => s

/-! ### The rows -/

/-- STOP_PUT (R50). -/
def execStopPut (s : State) : Host.Outcome State Fault Refusal := .next (take s .stopPut putStop noMark)

/-- STOP_GET (R50). -/
def execStopGet (s : State) : Host.Outcome State Fault Refusal := .next (take s .stopGet getStop noMark)

/-- DIV_PUT (R51). -/
def execDivPut (s : State) : Host.Outcome State Fault Refusal := .next (take s .divPut putDelay noMark)

/-- DIV_GET (R51). -/
def execDivGet (s : State) : Host.Outcome State Fault Refusal := .next (take s .divGet getDelay noMark)

/-- REG_PUT (R45). -/
def execRegPut (s : State) : Host.Outcome State Fault Refusal := .next (take s .regPut putSet noMark)

/-- REG_GET (R45). -/
def execRegGet (s : State) : Host.Outcome State Fault Refusal := .next (take s .regGet getSet noMark)

/-- PLAN_PUT (R37). -/
def execPlanPut (s : State) : Host.Outcome State Fault Refusal := .next (take s .planPut putPlan noMark)

/-- PLAN_GET (R36). -/
def execPlanGet (s : State) : Host.Outcome State Fault Refusal := .next (take s .planGet getPlan noMark)

/-- PLAN_SIZE (R43). -/
def execPlanSize (s : State) : Host.Outcome State Fault Refusal := .next (take s .planSize putSize noMark)

/-- FOLLOW_PUT (R179). -/
def execFollowPut (s : State) : Host.Outcome State Fault Refusal := .next (take s .followPut putFollow noMark)

/-- FOLLOW_GET (R179). -/
def execFollowGet (s : State) : Host.Outcome State Fault Refusal := .next (take s .followGet getFollow noMark)

/-- PICKUP_PUT (R96). -/
def execPickupPut (s : State) : Host.Outcome State Fault Refusal := .next (take s .pickupPut putPickup noMark)

/-- PICKUP_GET (R96). -/
def execPickupGet (s : State) : Host.Outcome State Fault Refusal := .next (take s .pickupGet getPickup noMark)

/-- SOUND_PUT (R147). -/
def execSoundPut (s : State) : Host.Outcome State Fault Refusal := .next (take s .soundPut putSound noMark)

/-- SOUND_GET (R147). -/
def execSoundGet (s : State) : Host.Outcome State Fault Refusal := .next (take s .soundGet getSound noMark)

/-- STEP_NEW (R25). -/
def execStepNew (s : State) : Host.Outcome State Fault Refusal := .next (take s .stepNew newStep noMark)

/-- STEP_SET (R26). -/
def execStepSet (s : State) : Host.Outcome State Fault Refusal := .next (take s .stepSet setStep noMark)

/-- STEP_MOVE (R27). -/
def execStepMove (s : State) : Host.Outcome State Fault Refusal := .next (take s .stepMove moveStep noMark)

/-- STEP_FREE (R28). -/
def execStepFree (s : State) : Host.Outcome State Fault Refusal := .next (take s .stepFree freeStep noMark)

/-- LIST_EMPTY (R29). -/
def execListEmpty (s : State) : Host.Outcome State Fault Refusal := .next (take s .listEmpty emptyList noMark)

/-- LIST_LENGTH (R30). -/
def execListLength (s : State) : Host.Outcome State Fault Refusal := .next (take s .listLength setLength noMark)

/-- STEP_GET (R31). -/
def execStepGet (s : State) : Host.Outcome State Fault Refusal := .next (take s .stepGet getStep noMark)

/-- LIST_GET (R31). -/
def execListGet (s : State) : Host.Outcome State Fault Refusal := .next (take s .listGet getList noMark)

/-- MODE (R124). -/
def execMode (s : State) : Host.Outcome State Fault Refusal := .next (take s .mode modeRequest noMark)

/-- START (R100). -/
def execStart (s : State) : Host.Outcome State Fault Refusal := .next (take s .start startRequest noMark)

/-- FINISH (R120). -/
def execFinish (s : State) : Host.Outcome State Fault Refusal := .next (take s .finish finishRequest noMark)

/-- HALT (R180). -/
def execHalt (s : State) : Host.Outcome State Fault Refusal := .next (take s .halt haltRequest noMark)

/-- RELEASE (R118). -/
def execRelease (s : State) : Host.Outcome State Fault Refusal := .next (take s .release releaseRequest noMark)

/-- TEMPO_NOW (R64). -/
def execTempoNow (s : State) : Host.Outcome State Fault Refusal := .next (take s .tempoNow tempoNowRequest noMark)

/-- TEMPO_NEXT_BEAT (R65). -/
def execTempoNextBeat (s : State) : Host.Outcome State Fault Refusal :=
  .next (take s .tempoNextBeat tempoNextRequest noMark)

/-- REG_NOW (R48). -/
def execRegNow (s : State) : Host.Outcome State Fault Refusal := .next (take s .regNow regNowRequest noMark)

/-- REPORT_RATE (R76). -/
def execReportRate (s : State) : Host.Outcome State Fault Refusal := .next (take s .reportRate rateRequest noMark)

/-- FAULT_CLEAR (R156). -/
def execFaultClear (s : State) : Host.Outcome State Fault Refusal := .next (take s .faultClear faultClearRequest noMark)

/-- STATUS (R184): a reply that carries the alerts-lost flag set may clear it when it is taken (R186). -/
def execStatus (s : State) : Host.Outcome State Fault Refusal :=
  .next (take s .status statusRequest fun x => x.handler.alertsLost)

/-- RESTART (R181). -/
def execRestart (s : State) : Host.Outcome State Fault Refusal := .next (take s .restart restartRequest noMark)

/-- RESET (R182). -/
def execReset (s : State) : Host.Outcome State Fault Refusal := .next (take s .reset resetRequest noMark)

/-- UNKNOWN_REQUEST (R176). -/
def execUnknownRequest (s : State) : Host.Outcome State Fault Refusal := .next (takeUnknown s)

end Machine

end Sys2Proof
end

