-- ==== Sys2Proof/Machine/Events.lean ====
section
/-! DEFINITION. The rows that come due of themselves: detector, clock, follower, scheduler and list controller events, each with the
condition under which it may be taken; and the list of all rows due at the present moment. A row that is not due changes nothing
(note 1). -/

namespace Sys2Proof

namespace Machine

/-- What the rows below answer: `act` when the event is due and no full reset is under way, else nothing happens. -/
def whenDue (s : State) (isDue : Bool) (act : State) : Host.Outcome State Fault Refusal :=
  .next (if isDue && !s.relay.resetting then act else s)

/-! ### Onset detector -/

/-- A level frame arrives (R81, R85, R86): one that fails the first three conditions of R81, or falls in a full reset, is not
taken. -/
def arriveLevels (s : State) (bytes : List Byte) : State :=
  match readLevels s.detector.fourChannels bytes with
  | some f => takeLevels s f.1 f.2
  | none => s

/-- LEVEL_FRAME (R86). -/
def execLevelFrame (bytes : List Byte) (s : State) : Host.Outcome State Fault Refusal := whenDue s true (arriveLevels s bytes)

/-- STALE_TIMER_EXPIRY (R84). -/
def execStaleTimerExpiry (s : State) : Host.Outcome State Fault Refusal := whenDue s (staleDue s) (becomeStale s)

/-- BOOST_EXPIRY (R89). -/
def execBoostExpiry (s : State) : Host.Outcome State Fault Refusal := whenDue s (boostDue s) (endBoost s)

/-! ### Beat clock -/

/-- BEAT_BOUNDARY (R74); the follower is told of a stop point that a pending tempo applied there reaches (R61, R68). -/
def execBeatBoundary (s : State) : Host.Outcome State Fault Refusal := whenDue s (boundaryDue s) (settle (crossBoundary s))

/-- ANCHOR_RENEWAL (R60). -/
def execAnchorRenewal (s : State) : Host.Outcome State Fault Refusal := whenDue s (renewalDue s) (renewAnchor s)

/-- The clock reaches the stop point the follower holds, and the follower is told (R68). -/
def reachStop (s : State) : State :=
  match s.follower.stop with
  | some st => settle (holdClock s st.pos)
  | none => s

/-- STOP_POINT_REACHED (R68). -/
def execStopPointReached (s : State) : Host.Outcome State Fault Refusal := whenDue s (stopDue s) (reachStop s)

/-! ### Follower -/

/-- GAP_ORIGIN_REACHED (R104). -/
def execGapOriginReached (s : State) : Host.Outcome State Fault Refusal := whenDue s (gapOriginDue s) (withPlay s .running)

/-- PHRASE_END_REACHED (R104). -/
def execPhraseEndReached (s : State) : Host.Outcome State Fault Refusal :=
  whenDue s (phraseEndDue s).isSome (passPhraseEnd s)

/-- NEXT_ENTRY_ENGAGE (R44, R102). -/
def execNextEntryEngage (s : State) : Host.Outcome State Fault Refusal := whenDue s (engageDue s).isSome (engageNext s)

/-- The point the walk has reached is opened or passed over (R105). -/
def openDue (s : State) : State :=
  match pointOpenDue s with
  | some p => openPoint s p
  | none => s

/-- POINT_OPEN (R105). -/
def execPointOpen (s : State) : Host.Outcome State Fault Refusal := whenDue s (pointOpenDue s).isSome (openDue s)

/-- An open point the position has passed closes as a miss (R106, R110). -/
def closeDue (s : State) : State :=
  match pointCloseDue s with
  | some p => announce s.follower.conf (miss (s.withFollower { s.follower with window := s.follower.window.erase p }))
  | none => s

/-- POINT_CLOSE (R106). -/
def execPointClose (s : State) : Host.Outcome State Fault Refusal := whenDue s (pointCloseDue s).isSome (closeDue s)

/-- LEAD_IN_EXPIRY (R116). -/
def execLeadInExpiry (s : State) : Host.Outcome State Fault Refusal := whenDue s (leadInDue s) (expireLeadIn s)

/-- HOLD_TIMER_EXPIRY (R118). -/
def execHoldTimerExpiry (s : State) : Host.Outcome State Fault Refusal := whenDue s (holdTimerDue s) (releaseHold s)

/-- ENDING_TO_IDLE (R121). -/
def execEndingToIdle (s : State) : Host.Outcome State Fault Refusal := whenDue s (endingDue s) (endPlay s)

/-- PENDING_MODE_EFFECT (R124). -/
def execPendingModeEffect (s : State) : Host.Outcome State Fault Refusal := whenDue s (pendingModeDue s) (applyPendingMode s)

/-! ### Scheduler -/

/-- STEP_PLACE (R132). -/
def execStepPlace (w : WalkSel) (s : State) : Host.Outcome State Fault Refusal :=
  whenDue s (stepPlaceReady s w) (placeFromWalk s w)

/-- CATCH_UP_PLACE (R145). -/
def execCatchUpPlace (d : Division) (s : State) : Host.Outcome State Fault Refusal :=
  whenDue s (catchUpReady s d) (placeFromCatchUp s d)

/-- The first issuable press of `d` is examined (R136 to R139). -/
def pressNow (s : State) (d : Division) : State :=
  match pressFirst s d with
  | some a => waitingSwitches (examinePress s d a)
  | none => s

/-- PRESS_ISSUE (R139). -/
def execPressIssue (d : Division) (s : State) : Host.Outcome State Fault Refusal :=
  whenDue s (pressFirst s d).isSome (pressNow s d)

/-- The first issuable release of `d` is issued (R136, R140). -/
def releaseNow (s : State) (d : Division) : State :=
  match releaseFirst s d with
  | some a => waitingSwitches (issueRelease s d a)
  | none => s

/-- RELEASE_ISSUE (R140). -/
def execReleaseIssue (d : Division) (s : State) : Host.Outcome State Fault Refusal :=
  whenDue s (releaseFirst s d).isSome (releaseNow s d)

/-- KEY_UP_TIME_EXPIRY (R141). -/
def execKeyUpTimeExpiry (d : Division) (k : Key) (s : State) : Host.Outcome State Fault Refusal :=
  whenDue s (keyUpOld s d k) (forgetKeyUp s d k)

/-! ### List controller -/

/-- LIST_VISIT (R22). -/
def execListVisit (s : State) : Host.Outcome State Fault Refusal := whenDue s (visitDue s) (visit (placeEarly s))

/-- LIST_COMMAND_DONE (R24). -/
def execListCommandDone (s : State) : Host.Outcome State Fault Refusal := whenDue s (commandDoneDue s) (placeCtlReply s)

/-! ### Everything due now (notes 2 and 3) -/

/-- `i` when it is due. -/
def dueIf (b : Bool) (i : Instr) : List Instr := if b then [i] else []

/-- The take of a request that is due (R174). -/
def takeDue (s : State) : List Instr :=
  match handlerFree s, s.handler.buffer with
  | true, p :: _ => [requestRow p]
  | _, _ => []

/-- The transmitters' takes that are due (R164, R168). -/
def sendsDue (s : State) : List Instr :=
  dueIf (linesOpen s && s.relay.downLane.isNone && !s.relay.downQueue.isEmpty) .downstreamTake
    ++ dueIf (linesOpen s && s.relay.upLane.isNone &&
      (!s.relay.forward.isEmpty || s.relay.slot.isSome || !s.handler.alerts.isEmpty)) .upstreamTake

/-- The timer and clock events that are due. -/
def clockDue (s : State) : List Instr :=
  dueIf (staleDue s) .staleTimerExpiry ++ dueIf (boostDue s) .boostExpiry ++ dueIf (boundaryDue s) .beatBoundary
    ++ dueIf (renewalDue s) .anchorRenewal ++ dueIf (stopDue s) .stopPointReached

/-- The follower's events that are due. -/
def followerDue (s : State) : List Instr :=
  dueIf (gapOriginDue s) .gapOriginReached ++ dueIf (phraseEndDue s).isSome .phraseEndReached
    ++ dueIf (engageDue s).isSome .nextEntryEngage ++ dueIf (pointOpenDue s).isSome .pointOpen
    ++ dueIf (pointCloseDue s).isSome .pointClose ++ dueIf (leadInDue s) .leadInExpiry
    ++ dueIf (holdTimerDue s) .holdTimerExpiry ++ dueIf (endingDue s) .endingToIdle
    ++ dueIf (pendingModeDue s) .pendingModeEffect

/-- The events of division `d` that are due. -/
def divisionDue (s : State) (d : Division) : List Instr :=
  dueIf (catchUpReady s d) (.catchUpPlace d) ++ dueIf (pressFirst s d).isSome (.pressIssue d)
    ++ dueIf (releaseFirst s d).isSome (.releaseIssue d)
    ++ ((List.finRange 61).filter (keyUpOld s d)).map (.keyUpTimeExpiry d)

/-- The scheduler's events that are due. -/
def schedulerDue (s : State) : List Instr :=
  dueIf (stepPlaceReady s .current) (.stepPlace .current) ++ dueIf (stepPlaceReady s .next) (.stepPlace .next)
    ++ Division.all.flatMap (divisionDue s)

/-- Every row due at the present moment but list visits, which give way to the rest (R22). In a full reset only its end, when the
RESET request caused it (R170). -/
def dueEvents (s : State) : List Instr :=
  if s.relay.resetting then
    dueIf (decide (s.handler.cause = .command)) (.resetEnd s.pins.nodeStraps s.pins.fourChannels)
  else takeDue s ++ sendsDue s ++ clockDue s ++ followerDue s ++ schedulerDue s
    ++ dueIf (commandDoneDue s) .listCommandDone

end Machine

end Sys2Proof
end

