-- ==== Sys2Proof/Machine/Dispatch.lean ====
section
/-! DEFINITION. The meaning of each command: one direct call for each constructor of Instr. -/

namespace Sys2Proof

namespace Machine

/-- The effect of command `i` on everything but the queue of waiting commands. -/
def exec (i : Instr) (s : State) : Host.Outcome State Fault Refusal :=
  match i with
  | .stopPut => Sys2Proof.Machine.execStopPut s
  | .stopGet => Sys2Proof.Machine.execStopGet s
  | .divPut => Sys2Proof.Machine.execDivPut s
  | .divGet => Sys2Proof.Machine.execDivGet s
  | .regPut => Sys2Proof.Machine.execRegPut s
  | .regGet => Sys2Proof.Machine.execRegGet s
  | .planPut => Sys2Proof.Machine.execPlanPut s
  | .planGet => Sys2Proof.Machine.execPlanGet s
  | .planSize => Sys2Proof.Machine.execPlanSize s
  | .followPut => Sys2Proof.Machine.execFollowPut s
  | .followGet => Sys2Proof.Machine.execFollowGet s
  | .pickupPut => Sys2Proof.Machine.execPickupPut s
  | .pickupGet => Sys2Proof.Machine.execPickupGet s
  | .soundPut => Sys2Proof.Machine.execSoundPut s
  | .soundGet => Sys2Proof.Machine.execSoundGet s
  | .stepNew => Sys2Proof.Machine.execStepNew s
  | .stepSet => Sys2Proof.Machine.execStepSet s
  | .stepMove => Sys2Proof.Machine.execStepMove s
  | .stepFree => Sys2Proof.Machine.execStepFree s
  | .listEmpty => Sys2Proof.Machine.execListEmpty s
  | .listLength => Sys2Proof.Machine.execListLength s
  | .stepGet => Sys2Proof.Machine.execStepGet s
  | .listGet => Sys2Proof.Machine.execListGet s
  | .mode => Sys2Proof.Machine.execMode s
  | .start => Sys2Proof.Machine.execStart s
  | .finish => Sys2Proof.Machine.execFinish s
  | .halt => Sys2Proof.Machine.execHalt s
  | .release => Sys2Proof.Machine.execRelease s
  | .tempoNow => Sys2Proof.Machine.execTempoNow s
  | .tempoNextBeat => Sys2Proof.Machine.execTempoNextBeat s
  | .regNow => Sys2Proof.Machine.execRegNow s
  | .reportRate => Sys2Proof.Machine.execReportRate s
  | .faultClear => Sys2Proof.Machine.execFaultClear s
  | .status => Sys2Proof.Machine.execStatus s
  | .restart => Sys2Proof.Machine.execRestart s
  | .reset => Sys2Proof.Machine.execReset s
  | .unknownRequest => Sys2Proof.Machine.execUnknownRequest s
  | .consoleKeysFrame bytes => Sys2Proof.Machine.execConsoleKeysFrame bytes s
  | .consoleStopsFrame bytes => Sys2Proof.Machine.execConsoleStopsFrame bytes s
  | .manageFrame bytes => Sys2Proof.Machine.execManageFrame bytes s
  | .cipher bytes => Sys2Proof.Machine.execCipher bytes s
  | .driver bytes => Sys2Proof.Machine.execDriver bytes s
  | .windLow bytes => Sys2Proof.Machine.execWindLow bytes s
  | .windOk bytes => Sys2Proof.Machine.execWindOk bytes s
  | .downstreamReply bytes => Sys2Proof.Machine.execDownstreamReply bytes s
  | .downstreamAlert bytes => Sys2Proof.Machine.execDownstreamAlert bytes s
  | .downstreamTake => Sys2Proof.Machine.execDownstreamTake s
  | .downstreamSendDone => Sys2Proof.Machine.execDownstreamSendDone s
  | .upstreamTake => Sys2Proof.Machine.execUpstreamTake s
  | .upstreamSendDone => Sys2Proof.Machine.execUpstreamSendDone s
  | .powerOn => Sys2Proof.Machine.execPowerOn s
  | .resetInput => Sys2Proof.Machine.execResetInput s
  | .resetEnd straps four => Sys2Proof.Machine.execResetEnd straps four s
  | .bypassRelease => Sys2Proof.Machine.execBypassRelease s
  | .downstreamReceiveStart => Sys2Proof.Machine.execDownstreamReceiveStart s
  | .levelFrame bytes => Sys2Proof.Machine.execLevelFrame bytes s
  | .staleTimerExpiry => Sys2Proof.Machine.execStaleTimerExpiry s
  | .boostExpiry => Sys2Proof.Machine.execBoostExpiry s
  | .beatBoundary => Sys2Proof.Machine.execBeatBoundary s
  | .anchorRenewal => Sys2Proof.Machine.execAnchorRenewal s
  | .stopPointReached => Sys2Proof.Machine.execStopPointReached s
  | .gapOriginReached => Sys2Proof.Machine.execGapOriginReached s
  | .phraseEndReached => Sys2Proof.Machine.execPhraseEndReached s
  | .nextEntryEngage => Sys2Proof.Machine.execNextEntryEngage s
  | .pointOpen => Sys2Proof.Machine.execPointOpen s
  | .pointClose => Sys2Proof.Machine.execPointClose s
  | .leadInExpiry => Sys2Proof.Machine.execLeadInExpiry s
  | .holdTimerExpiry => Sys2Proof.Machine.execHoldTimerExpiry s
  | .endingToIdle => Sys2Proof.Machine.execEndingToIdle s
  | .pendingModeEffect => Sys2Proof.Machine.execPendingModeEffect s
  | .stepPlace walk => Sys2Proof.Machine.execStepPlace walk s
  | .catchUpPlace d => Sys2Proof.Machine.execCatchUpPlace d s
  | .pressIssue d => Sys2Proof.Machine.execPressIssue d s
  | .releaseIssue d => Sys2Proof.Machine.execReleaseIssue d s
  | .keyUpTimeExpiry d k => Sys2Proof.Machine.execKeyUpTimeExpiry d k s
  | .listVisit => Sys2Proof.Machine.execListVisit s
  | .listCommandDone => Sys2Proof.Machine.execListCommandDone s
  | .downstreamFrameDiscard bytes => Sys2Proof.Machine.execDownstreamFrameDiscard bytes s

end Machine

end Sys2Proof
end

