-- ==== Sys2Proof/Machine/Step.lean ====
section
/-! DEFINITION. One step: the command at the front of the queue, or on an empty queue one thing that is due, or 1 tu of part time
(notes 2, 3, 4). -/

namespace Sys2Proof

namespace Machine

/-- A free value has been used. -/
def State.drawn (s : State) : State := s.withFreeCount (s.freeCount + 1)

/-- Part time runs on by 1 tu; within a full reset it stands (note 2). -/
def tick (s : State) : State := if s.relay.resetting then s else s.withPartTime (s.partTime + 1#32)

/-- A visit of the list controller must be made now: 2 tu have passed since the one before it (R23). -/
def visitPressing (s : State) : Bool := decide (Config.visitSpan ≤ tdiff s.partTime s.ctl.lastVisit)

/-- Nothing else is due: a visit that is pressing is made, one that may wait is made or not (free, note 4), else part time runs
on. -/
def rest (s : State) : Host.Outcome State Fault Refusal :=
  if visitDue s && !s.relay.resetting then
    if visitPressing s then exec .listVisit s
    else if Config.freeVisit s.freeCount then exec .listVisit s.drawn
    else .next (tick s.drawn)
  else .next (tick s)

/-- What the part does of itself: the one thing due, or of several one by the free order (note 3). -/
def idle (s : State) : Host.Outcome State Fault Refusal :=
  match dueEvents s with
  | [] => rest s
  | [e] => exec e s
  | e :: more => exec ((e :: more).getD (Config.freeOrder s.freeCount % (more.length + 1)) e) s.drawn

/-- One step: the command at the front of the queue is taken off and run; an empty queue leaves the part to itself. -/
def step (s : State) : Host.Outcome State Fault Refusal :=
  match s.pending with
  | c :: waiting => exec c (s.withPending waiting)
  | [] => idle s

/-- `s` with the command a word spells put at the front of the queue; `s` where the word spells none. -/
def State.withFetchWord (s : State) (nbits w : Nat) : State :=
  match decodeTableWord nbits w with
  | some c => s.withPending (c :: s.pending)
  | none => s

end Machine

end Sys2Proof
end

