-- ==== Sys2Proof/Safety.lean ====
section
/-! DEFINITION. What holds of a sound state, in the terms the statements use: each a rule of the manual about the whole part. -/

namespace Sys2Proof

namespace Machine

/-! ### Capacities (R129, R139, R163, R166, R167, R173, R185) -/

/-- The markers of the downstream queue. -/
def markersOf (q : List DownItem) : List Marker :=
  q.filterMap fun x => match x with
    | .marker m => some m
    | .pass _ => none

/-- The queues of the relay path, the request handler and the alert queue are within their sizes, and the downstream queue holds
each marker at most once. -/
def QueuesFit (s : State) : Prop :=
  s.handler.buffer.length ≤ 4 ∧ s.handler.alerts.length ≤ 16 ∧ s.relay.forward.length ≤ 8 ∧
    passCount s.relay.downQueue ≤ 8 ∧ (markersOf s.relay.downQueue).Nodup

/-- While bypass is asserted, as it is throughout a full reset, both transmit lanes are free and downstream receive has not begun
(R170). -/
def LinesShut (s : State) : Prop :=
  (s.relay.resetting = true → s.relay.bypass = true) ∧
    (s.relay.bypass = true → s.relay.downReceiving = false ∧ s.relay.downLane = none ∧ s.relay.upLane = none)

/-- The rows that take a frame with bytes `b` from upstream receive (R160). -/
def upstreamRows (b : List Byte) : List Instr := [.consoleKeysFrame b, .consoleStopsFrame b, .manageFrame b]

/-- The rows that take a frame with bytes `b` from downstream receive (R161). -/
def downstreamRows (b : List Byte) : List Instr :=
  [.downstreamReply b, .downstreamAlert b, .cipher b, .driver b, .windLow b, .windOk b]

/-- Action `a` may stand before action `b` (R129): lower position, or the same with the releases first. -/
def InOrder (a b : Action) : Prop := a.pos < b.pos ∨ (a.pos = b.pos ∧ (a.kind = .press → b.kind = .press))

/-- Every issue queue holds at most 48 actions, in the order of R129. -/
def IssueQueuesOrdered (s : State) : Prop := ∀ d, (queue s d).length ≤ 48 ∧ (queue s d).Pairwise InOrder

/-- Every hold count lies in 0..15 (R127, R139). -/
def HoldsBounded (s : State) : Prop := ∀ d k, vget (s.sched.holds.get d) k ≤ 15

/-! ### Protection and stops (R144, R46) -/

/-- A division under override has no action queued and no key held by playback (R144). -/
def OverrideSilent (s : State) : Prop := ∀ d, overridden s d = true → queue s d = [] ∧ ∀ k, vget (s.sched.holds.get d) k = 0

/-- The playback stop image is the active set less the withdrawn stops (R46). -/
def StopsFormed (s : State) : Prop := s.sched.stopImage = formedImage s

/-! ### Follower and clock (R110, R123, R124, R99, R56, R62) -/

/-- Counter, state and run agree (R110). -/
def ConfidenceSound (s : State) : Prop :=
  s.follower.counter ≤ 255 ∧ s.follower.run ≤ 8 ∧
    (s.follower.conf = .lost → s.follower.counter = 255) ∧
    (s.follower.conf = .locked → s.follower.counter < 128) ∧
    (s.follower.conf = .doubtful → 128 ≤ s.follower.counter)

/-- In OFF play is IDLE (R123), and a pending mode is REHEARSE or FOLLOW (R99). -/
def ModeSound (s : State) : Prop :=
  (s.follower.mode = .off → s.follower.play = .idle) ∧
    s.follower.pendingMode ≠ some .off ∧ s.follower.pendingMode ≠ some .steady

/-- The clock is STOPPED exactly when play is IDLE; in WAITING, HOLDING and ENDING it is HELD at the stop point (R56, R99, R103). -/
def ClockMatchesPlay (s : State) : Prop :=
  (s.follower.play = .idle ↔ s.clock.state = .stopped) ∧
    (s.follower.play = .waiting ∨ s.follower.play = .holding ∨ s.follower.play = .ending →
      s.clock.state = .held ∧ s.follower.stop.map StopPoint.pos = some s.clock.x0)

/-- In IDLE the follower holds no entry, no stop point, no point and no lock (R121, R122, R126). -/
def IdleHoldsNothing (s : State) : Prop :=
  s.follower.play = .idle →
    s.follower.current = none ∧ s.follower.next = none ∧ s.follower.stop = none ∧ s.follower.window = [] ∧
      s.follower.lockSet = [] ∧ s.follower.finish = .none

/-- While play is not IDLE the follower has a current entry (R44, R99). -/
def PlayHasCurrent (s : State) : Prop := s.follower.play ≠ .idle → s.follower.current ≠ none

/-- The window list holds at most 8 points, in position order (R105). -/
def WindowOrdered (s : State) : Prop :=
  s.follower.window.length ≤ 8 ∧ s.follower.window.Pairwise fun p q => p.pos ≤ q.pos

/-- A check for an expected point is owed only to a waiting entry (R101, R120). -/
def ChecksOnlyInWaiting (s : State) : Prop := s.follower.checkHeld = true → s.follower.play = .waiting

/-- The period lies in the follow profile's range, and that range in 30,000..200,000; a pending tempo lies there too (R62, R55). -/
def PeriodInRange (s : State) : Prop :=
  30000 ≤ s.tables.follow.pmin ∧ s.tables.follow.pmin ≤ s.clock.period ∧ s.clock.period ≤ s.tables.follow.pmax ∧
    s.tables.follow.pmax ≤ 200000 ∧ ∀ p, s.clock.pendingTempo = some p → 30000 ≤ p ∧ p ≤ 200000

/-! ### Tables (R36 to R39, R50, R51, R147, R96, R179) -/

/-- Plan entry `e` holds values of the table of section 3.1, under `n` available channels. -/
def EntryInRange (avail : BitVec 4) (e : PlanEntry) : Prop :=
  e.list ≠ 0 ∧ e.gap ≤ 384 ∧ (1 ≤ e.leadIn ∧ e.leadIn ≤ 16) ∧ (1 ≤ e.hold ∧ e.hold ≤ 16) ∧
    (-12 ≤ e.transposition ∧ e.transposition ≤ 12) ∧ e.mask &&& avail ≠ 0 ∧
    (1 ≤ e.minChannels ∧ e.minChannels ≤ channelsIn (e.mask &&& avail)) ∧
    ∀ p, e.tempo = some p → 30000 ≤ p ∧ p ≤ 200000

/-- The window, gains, limits and warning level of a follow profile lie in the ranges of R179; Pmin and Pmax are for
`PeriodInRange`. -/
def FollowInRange (f : FollowProfile) : Prop :=
  (4 ≤ f.w ∧ f.w ≤ 48) ∧ f.kp ≤ 16 ∧ (1 ≤ f.j ∧ f.j ≤ 48) ∧ f.ki ≤ 64 ∧ (1 ≤ f.dmax ∧ f.dmax ≤ 32) ∧
    1 ≤ f.warning ∧ f.warning ≤ 255

/-- Every value of a pickup profile lies in the ranges of R96. -/
def PickupInRange (p : PickupProfile) : Prop :=
  (1 ≤ p.span ∧ p.span ≤ 8) ∧ (4 ≤ p.threshold ∧ p.threshold ≤ 120) ∧ p.gate ≤ 479 ∧
    (1000 ≤ p.refractory ∧ p.refractory ≤ 25000) ∧ p.boost ≤ 60 ∧ p.cutoffLevel ≤ 479 ∧
    (2000 ≤ p.cutoffHold ∧ p.cutoffHold ≤ 50000) ∧ p.latency ≤ 2000

/-- Every table, and the follow and pickup profiles, hold values of their own ranges. -/
def TablesInRange (s : State) : Prop :=
  s.tables.planSize ≤ 64 ∧ (∀ i, EntryInRange (available s) (planEntry s i)) ∧
    (∀ n, (vget s.tables.stops n).speechLead ≤ 20000 ∧ (vget s.tables.stops n).bleed ≤ 25000) ∧
    (∀ d, s.tables.chamber.get d ≤ 10000) ∧ s.tables.gap ≤ 10000 ∧
    FollowInRange s.tables.follow ∧ PickupInRange s.tables.pickup

/-- Every phrase length is at most 32,768 ticks, and so is the one a LIST-LENGTH in flight will write (R10, R19). -/
def LengthsInRange (s : State) : Prop :=
  (∀ l, phraseLength s l ≤ 32768) ∧ ∀ l t, s.ctl.work = some (.length l t) → t ≤ 32768

/-! ### The step store (R1, R12) -/

/-- Every step stands in the chain of the list its list field names, once, and in no other; the step of a STEP-NEW in flight that
is not yet placed stands in none (R1). -/
def EachStepInOneList (s : State) : Prop :=
  (∀ l, (chain s l).Nodup) ∧
    ∀ n l, n ∈ chain s l ↔ ((stepRec s n).list = l ∧ s.store.unplaced ≠ some n)

/-- Every phrase list stands in non-decreasing onset order (R12). -/
def ListsInOrder (s : State) : Prop :=
  ∀ l, l ≠ 0 → (chain s l).Pairwise fun a b => (stepRec s a).music.onset ≤ (stepRec s b).music.onset

/-- Every step after `x` in a chain, or every step when `x` is none, but step `n` itself, has an onset above `t` (R12). -/
def LaterAfter (s : State) (l : ListNo) (n : StepNo) (x : Option StepNo) (t : Nat) : Prop :=
  match x with
  | some x => ∃ a b, chain s l = a ++ x :: b ∧ ∀ y ∈ b, y ≠ n → t < (stepRec s y).music.onset
  | none => ∀ y ∈ chain s l, y ≠ n → t < (stepRec s y).music.onset

/-- Step `n`, about to be linked into phrase list `l`, is the unplaced step of a STEP-NEW, or stands in some phrase list. -/
def Placeable (s : State) (n : StepNo) (l : ListNo) : Prop :=
  l ≠ 0 ∧ ((s.store.unplaced = some n ∧ (stepRec s n).list = l) ∨ (s.store.unplaced = none ∧ (stepRec s n).list ≠ 0))

/-- What the visits still to make ask of the store (R22, R25 to R30): a walk has found every step it has passed later than the placed
step; a link follows a step no later than it. -/
def WorkSound (s : State) : Prop :=
  match s.ctl.work with
  | none => s.store.unplaced = none
  | some (.newWrite n _ l) => l ≠ 0 ∧ s.store.unplaced = some n ∧ (stepRec s n).list = l
  | some (.setWrite n _ l) => l ≠ 0 ∧ s.store.unplaced = none ∧ (stepRec s n).list = l
  | some (.walk n t l []) => Placeable s n l ∧ LaterAfter s l n none t
  | some (.walk n t l (x :: rest)) =>
    Placeable s n l ∧ x ≠ n ∧ LaterAfter s l n (some x) t ∧
      ∃ a b, chain s l = a ++ x :: b ∧ rest = a.reverse.filter fun y => decide (y ≠ n)
  | some (.link n t l none) => Placeable s n l ∧ LaterAfter s l n none t
  | some (.link n t l (some x)) =>
    Placeable s n l ∧ x ≠ n ∧ (stepRec s x).music.onset ≤ t ∧ LaterAfter s l n (some x) t
  | some (.free n) => s.store.unplaced = none ∧ (stepRec s n).list ≠ 0
  | some (.empty l _) => s.store.unplaced = none ∧ l ≠ 0
  | some (.length l _) => s.store.unplaced = none ∧ l ≠ 0

/-- The whole store (R1, R12), with the command in flight; in READY none is in flight (R17). -/
def StoreWhole (s : State) : Prop :=
  EachStepInOneList s ∧ ListsInOrder s ∧ WorkSound s ∧ (s.ctl.phase = .ready → s.ctl.work = none)

/-- The lists of the lock set are phrase lists, and none is involved in the command in flight (R20, R33, R125). -/
def LocksClear (s : State) : Prop :=
  (∀ l ∈ s.follower.lockSet, l ≠ 0 ∧ involved s l = false) ∧ ∀ i, (planEntry s i).list ≠ 0

/-! ### Taking a request (R174) -/

/-- The request that stands at the head of the buffer, with its tag, code and arguments, may be taken now (R174). -/
def Taking (s : State) (tag code : Byte) (args : List Byte) : Prop :=
  s.handler.buffer.head? = some (tag :: code :: args) ∧ s.handler.waiting = none ∧ s.handler.resetTaken = false ∧
    s.relay.resetting = false

/-- `s` with a reply of the handler placed (R174, R175). -/
def replied (s : State) (tag code : Byte) (r : Result) (data : List Byte) : State :=
  placeReply s { tag := tag, code := code, result := r, data := data, clearsLost := false }

/-- `s` with the request at the head of the buffer taken and refused: the reply carries the result and no data, and nothing else
changes (R175, R176). -/
def refused (s : State) (tag code : Byte) (r : Result) : State := replied (withoutHead s) tag code r []

/-- A reply with DONE that carries `data` and clears no flag (R175). -/
def doneReply (tag code : Byte) (data : List Byte) : Reply :=
  { tag := tag, code := code, result := .done, data := data, clearsLost := false }

/-! ### What a stop of play leaves (R122, R146, R54) -/

/-- The follower after any end of play (R121, R122): IDLE, with nothing current, engaged, open, timed or locked. -/
def resting (f : Follower) : Follower :=
  { f with play := .idle, current := none, next := none, finish := .none, stop := none, timer := none, window := []
           pointsCurrent := none, pointsNext := none, released := [], lockSet := [], heldOnsets := [], checkHeld := false }

/-- Division `d` has been purged between `s` and `t` (R144): its queue and hold counts empty, its catch-up walk gone and waiting for no
room, every key it held stamped with the present part time, and its key frame marked due if it held any. -/
def Purged (s t : State) (d : Division) : Prop :=
  queue t d = [] ∧ t.sched.catchUp.get d = none ∧
    (∀ w, t.sched.stalled = some w → w.catchUp = true → w.division ≠ d) ∧ (∀ k, vget (t.sched.holds.get d) k = 0) ∧
    (∀ k, vget (t.sched.keyUps.get d) k =
      if 0 < vget (s.sched.holds.get d) k then some s.partTime else vget (s.sched.keyUps.get d) k) ∧
    ((∃ k, 0 < vget (s.sched.holds.get d) k) → .marker (.keys d) ∈ t.relay.downQueue)

/-- The registration has been dropped between `s` and `t` (R54). -/
def RegistrationDropped (s t : State) : Prop :=
  t.sched.active = none ∧ t.sched.switched = none ∧ t.sched.stopImage = 0 ∧
    (s.sched.stopImage ≠ 0 → .marker .stops ∈ t.relay.downQueue)

/-- Entry `i`'s registration switch to set `k` has been made between `s` and `t` (R47, R46): the set active, the switch recorded, the
playback stop image formed of it, and the stop frame marked due if the image changed. -/
def SwitchedTo (s t : State) (i : EntryNo) (k : SetNo) : Prop :=
  t.sched.active = some k ∧ t.sched.switched = some i ∧ t.sched.stopImage = lessWithdrawn s (vget s.tables.sets k) ∧
    (t.sched.stopImage ≠ s.sched.stopImage → .marker .stops ∈ t.relay.downQueue)

/-- `m` is the largest value of `f` among the stops of division `d` in set `b`, and 0 when there is none (R52, R89). -/
def LargestOf (s : State) (d : Division) (b : BitVec 48) (f : StopEntry → Nat) (m : Nat) : Prop :=
  (∀ n : Fin 48, b.getLsbD n.val = true → (vget s.tables.stops n).division = d → f (vget s.tables.stops n) ≤ m) ∧
    (m = 0 ∨ ∃ n : Fin 48, b.getLsbD n.val = true ∧ (vget s.tables.stops n).division = d ∧ f (vget s.tables.stops n) = m)

/-- The press lead of division `d` for entry `i` is `x` (R52): the chamber delay and the largest speech lead among the division's stops
in the entry's set, or in the active registration under KEEP, that are not withdrawn (R46). -/
def LeadIs (s : State) (d : Division) (i : EntryNo) (x : Int) : Prop :=
  let named : Option SetNo := match (planEntry s i).registration with
    | some k => some k
    | none => s.sched.active
  let withdrawn : Prop := s.prot.escalated = true ∨ s.prot.faults.get d ≠ none
  ∃ m : Nat, x = ((s.tables.chamber.get d + m : Nat) : Int) ∧
    (withdrawn ∨ named = none → m = 0) ∧
    (¬withdrawn → ∀ k, named = some k → LargestOf s d (vget s.tables.sets k) StopEntry.speechLead m)

/-- Press `b` of division `d` has due time `y`, as tu from now (R134): the clock's for its position less its lead. -/
def PressDueAt (s : State) (d : Division) (b : Action) (y : Int) : Prop :=
  ∃ x lead, dueIn s b.pos = some x ∧ LeadIs s d b.entry lead ∧ y = x - lead

/-- Action `b` stands after action `a` in queue `q`. -/
def StandsAfter (q : List Action) (a b : Action) : Prop := ∃ l r, q = l ++ a :: r ∧ a ∉ l ∧ b ∈ r

/-- Action `a` of division `d` is due and neither held nor waiting for the gap (R136). A press is due at its due time (R134), and one
that waits for the gap G is examined again when it is over (R138). A release is due at the clock's time less the chamber delay, or G
ahead of a press that stands after it with a key of its own, and is held while its partner or a press it holds a key over from is queued
(R135). A position below the anchor position is past (R134). -/
def Issuable (s : State) (d : Division) (a : Action) : Prop :=
  match a.kind with
  | .press => (∃ y, PressDueAt s d a y ∧ (y ≤ 0 ∨ a.pos < s.clock.x0)) ∧
      ∀ u, a.waitOn = some u → (s.tables.gap : Int) ≤ tdiff s.partTime u
  | .release => (∃ x, dueIn s a.pos = some x ∧ (x - (s.tables.chamber.get d : Int) ≤ 0 ∨ a.pos < s.clock.x0 ∨
        ∃ b y, StandsAfter (queue s d) a b ∧ b.kind = .press ∧ (∃ k ∈ b.keys, k ∈ a.keys) ∧ PressDueAt s d b y ∧
          y - (s.tables.gap : Int) ≤ 0)) ∧
      ∀ b ∈ queue s d, b.kind = .press → ¬(b.step = a.step ∧ b.entry = a.entry) ∧
        ∀ h ∈ a.heldOver, ¬(h.step = b.step ∧ h.entry = b.entry)

/-- Action `a` is the first issuable action of division `d` in queue order (R136). -/
def FirstIssuable (s : State) (d : Division) (a : Action) : Prop :=
  ∃ l r, queue s d = l ++ a :: r ∧ Issuable s d a ∧ ∀ b ∈ l, ¬Issuable s d b

/-- No issue queue holds an action of entry `i` (R47). -/
def NoActionsOf (s : State) (i : EntryNo) : Prop := ∀ d, ∀ a ∈ queue s d, a.entry ≠ i

/-- The clock after a stop of play with the beat count set to 0 (R79): the highest position has risen to the position of the stop, unless
the clock was STOPPED already (R74, R61 step 5). -/
def stoppedClock (s : State) : Clock :=
  { s.clock with
    state := .stopped, t0 := s.partTime, x0 := position s, pendingTempo := none, beats := 0
    highest := if s.clock.state = .stopped then s.clock.highest else max s.clock.highest (position s) }

/-- How many boundaries the re-anchor of a stop of play crosses (R79, R74): none when the clock was STOPPED already. -/
def stopCrossings (s : State) : Nat := if s.clock.state = .stopped then 0 else crossings s (position s)

/-- The BEAT alert of the boundaries a stop of play crosses (R75), with the beat count before the stop sets it (note 29). -/
def stopAlerts (s : State) : List Alert :=
  if beatReported s (stopCrossings s) then
    [.beat (s.clock.beats + BitVec.ofNat 32 (stopCrossings s)) s.follower.current (beatIndex s (position s)) s.partTime]
  else []

/-- Next entry `j` has been begun between `s`, HOLDING at the end of the phrase, and `t` (R118, R101): WAITING there for the choir when it
is CHOIR-LED with an expected point and was not engaged; else, when its origin lies at or ahead of the hold and it is neither empty nor
carries a tempo, running on from the hold with manner ORGAN. -/
def BegunAtHold (s t : State) (j : EntryNo) : Prop :=
  let e := planEntry s j
  let x := s.clock.x0
  let choir : Prop := s.follower.next = none ∧ e.start = .choirLed ∧ s.follower.mode ≠ .steady
  let o : Pos := match s.follower.next with
    | some g => g.origin
    | none => x + gapOf e
  t.store = s.store ∧ t.tables = s.tables ∧ t.ctl = s.ctl ∧
    (choir → hasPoints s j = true →
      t.follower.current = some j ∧ t.follower.play = .waiting ∧ t.clock.state = .held ∧ t.clock.x0 = x ∧
        t.follower.stop = some { pos := x, kind := .wait, reachedAt := some s.partTime } ∧
        t.follower.timer = some (after s.partTime ((e.leadIn * t.clock.period : Nat) : Int)) ∧
        t.follower.origin = s.follower.origin) ∧
    (¬choir ∨ (involved s e.list = false ∧ hasPoints s j = false) → s.clock.state = .held → x ≤ s.clock.highest → x ≤ o →
      e.tempo = none → phraseLength s e.list ≠ 0 → (∀ n, 0 < (stepRec s n).music.duration) →
        t.follower.current = some j ∧ t.follower.next = none ∧ t.follower.origin = o ∧
          t.follower.play = (if x < o then .gap else .running) ∧ t.follower.timer = none ∧
          t.clock = { s.clock with state := .moving, t0 := s.partTime } ∧
          (s.handler.alerts.length < 16 → .phrase j e.start .organ s.partTime ∈ t.handler.alerts))

/-! ### What an onset does (R107 to R113) -/

/-- The follower takes onset `o`: the mode is FOLLOW or REHEARSE, and the onset is qualified (R107). -/
def Takes (s : State) (o : Onset) : Prop :=
  (s.follower.mode = .follow ∨ s.follower.mode = .rehearse) ∧ minimumInForce s ≤ channelsIn o.channels

/-- Between `s` and `t` a match of deviation `e` has been written into every step of point `p` that is not in the free list, and into no
other (R8, R15). -/
def MatchWritten (s t : State) (p : Point) (e : Int) : Prop :=
  t.store.chains = s.store.chains ∧ ∀ n, stepRec t n =
    if n ∈ p.steps ∧ (stepRec s n).list ≠ 0 then
      { stepRec s n with deviation := some (max (-32767) (min e 32767)), matchCount := min 255 ((stepRec s n).matchCount + 1) }
    else stepRec s n

/-- Between `s` and `t` the confidence has counted one match (R110), which may complete a recovery (R112). -/
def MatchCounted (s t : State) : Prop :=
  (s.follower.conf ≠ .lost → t.follower.counter = s.follower.counter - 1 ∧ t.follower.run = s.follower.run ∧
    t.follower.conf = if s.follower.counter - 1 < 128 then .locked else .doubtful) ∧
  (s.follower.conf = .lost → s.follower.run < 7 → t.follower.counter = s.follower.counter ∧ t.follower.conf = .lost ∧
    t.follower.run = s.follower.run + 1) ∧
  (s.follower.conf = .lost → s.follower.run = 7 → t.follower.counter = 0 ∧ t.follower.conf = .locked ∧ t.follower.run = 0)

/-- At position `x` no point of `w` is passed (R106), and the point walk of `s` reaches no further point (R105). -/
def NonePassed (s : State) (w : List Point) (x : Pos) : Prop :=
  (∀ q ∈ w, x ≤ q.pos + (q.width : Int) * 256) ∧
    ∀ q, (remainingPoints s).head? = some q → x < q.pos - (q.width : Int) * 256

/-- `f` with window list `w`, and the point walks and the confidence of `t`. -/
def withPoints (f : Follower) (w : List Point) (t : State) : Follower :=
  { f with window := w, pointsCurrent := t.follower.pointsCurrent, pointsNext := t.follower.pointsNext
           counter := t.follower.counter, conf := t.follower.conf, run := t.follower.run }

/-- The points of `w` above `x`: those a hard sync to `x` leaves (R113 item 3). -/
def pointsAbove (w : List Point) (x : Pos) : List Point := w.filter fun q => decide (x < q.pos)

/-- The store, the list controller, the tables, the protection unit, the console images and lines, and the part time of `t` are those
of `s`. -/
def SameScoreAndTables (s t : State) : Prop :=
  t.store = s.store ∧ t.ctl = s.ctl ∧ t.tables = s.tables ∧ t.partTime = s.partTime ∧ t.pins = s.pins ∧
    t.relay.consoleKeys = s.relay.consoleKeys ∧ t.relay.consoleStops = s.relay.consoleStops ∧
    t.relay.forward = s.relay.forward ∧ t.relay.downLane = s.relay.downLane ∧ t.relay.upLane = s.relay.upLane ∧
    t.relay.node = s.relay.node ∧ t.relay.bypass = s.relay.bypass ∧ t.freeCount = s.freeCount

/-- A number as the byte that carries it. -/
def byte (n : Nat) : Byte := BitVec.ofNat 8 n

/-- The number two bytes carry, low byte first. -/
def word (lo hi : Byte) : Nat := lo.toNat + 256 * hi.toNat

/-- The number four bytes carry, low byte first. -/
def long (b0 b1 b2 b3 : Byte) : Nat := word b0 b1 + 65536 * word b2 b3

end Machine

end Sys2Proof
end

