-- ==== Sys2Proof/Certificates/Slice0/Obligations.lean ====
section
/-! DEFINITION. The statements for the provers. -/

open Sys2Proof Sys2Proof.Machine

/-! ### The queue of commands, and time -/

/-- A step takes the command at the front of the queue and runs it with the rest of the queue. -/
def Obligations.StepRunsTheFrontCommand : Prop :=
  ∀ (s : State) (c : Instr) (waiting : List Instr),
    s.pending = c :: waiting → step s = exec c (s.withPending waiting)

/-- Every command completes in every state, and leaves the waiting commands as they are; part time stands but at the end of a full
reset. The model's choices: that a command out of its row's conditions completes too, changing nothing (note 1), that no command moves
part time or the waiting commands (note 2), and that part time stands at the beginning of a full reset (note 8). -/
def Obligations.EveryCommandCompletes : Prop :=
  ∀ (c : Instr) (s : State), ∃ t, exec c s = .next t ∧ t.pending = s.pending ∧
    ((∀ straps four, c ≠ .resetEnd straps four) → t.partTime = s.partTime)

/-- With no command waiting, nothing due and no visit left, part time runs on by 1 tu and nothing else changes; with one thing due,
it is taken. The model's choice: notes 2 and 3. -/
def Obligations.PartTimeRunsWhenNothingIsDue : Prop :=
  ∀ s : State, s.pending = [] → s.relay.resetting = false →
    (dueEvents s = [] → visitDue s = false → step s = .next (s.withPartTime (s.partTime + 1#32))) ∧
    (dueEvents s = [] → visitDue s = true → visitPressing s = true → step s = exec .listVisit s) ∧
    ∀ c, dueEvents s = [c] → step s = exec c s

/-! ### Tables (spec 03, 05, 07) -/

/-- STOP-PUT stores the stop's division, and its speech lead and bleed length clamped, forms the playback stop image afresh and answers
with the entry as stored; STOP-GET answers the entry; a stop or division out of range is refused with RANGE. -/
def Obligations.StopPutStoresTheEntryClamped : Prop :=
  ∀ (s : State) (tag : Byte),
    (∀ (n : Fin 48) (d : Division) (l0 l1 b0 b1 : Byte), Taking s tag 1 [byte n.val, byte d.num, l0, l1, b0, b1] →
      let e : StopEntry := { division := d, speechLead := min (word l0 l1) 20000, bleed := min (word b0 b1) 25000 }
      exec .stopPut s = .next (replied
        (reformStops ((withoutHead s).withTables { s.tables with stops := vset s.tables.stops n e })) tag 1 .done
        ([byte n.val, byte d.num] ++ out16 e.speechLead ++ out16 e.bleed))) ∧
    (∀ (n d l0 l1 b0 b1 : Byte), Taking s tag 1 [n, d, l0, l1, b0, b1] → 48 ≤ n.toNat ∨ 4 ≤ d.toNat →
      exec .stopPut s = .next (refused s tag 1 .range)) ∧
    (∀ n : Fin 48, Taking s tag 2 [byte n.val] →
      let e := vget s.tables.stops n
      exec .stopGet s = .next (replied (withoutHead s) tag 2 .done
        ([byte n.val, byte e.division.num] ++ out16 e.speechLead ++ out16 e.bleed))) ∧
    ∀ n : Byte, Taking s tag 2 [n] → 48 ≤ n.toNat → exec .stopGet s = .next (refused s tag 2 .range)

/-- DIV-PUT stores the division's chamber delay clamped and answers it; DIV-GET answers it; a division out of range is refused with
RANGE; a full reset makes it 0, RESTART and HALT keep it; it enters both leads of its division. -/
def Obligations.DivPutStoresTheChamberDelayClamped : Prop :=
  ∀ (s : State) (tag : Byte),
    (∀ (d : Division) (v0 v1 : Byte), Taking s tag 3 [byte d.num, v0, v1] →
      exec .divPut s = .next (replied
        ((withoutHead s).withTables { s.tables with chamber := s.tables.chamber.set d (min (word v0 v1) 10000) }) tag 3 .done
        (byte d.num :: out16 (min (word v0 v1) 10000)))) ∧
    (∀ (d v0 v1 : Byte), Taking s tag 3 [d, v0, v1] → 4 ≤ d.toNat → exec .divPut s = .next (refused s tag 3 .range)) ∧
    (∀ d : Division, Taking s tag 4 [byte d.num] →
      exec .divGet s = .next (replied (withoutHead s) tag 4 .done (byte d.num :: out16 (s.tables.chamber.get d)))) ∧
    (∀ d : Byte, Taking s tag 4 [d] → 4 ≤ d.toNat → exec .divGet s = .next (refused s tag 4 .range)) ∧
    (∀ d : Division, (beginReset s .power).tables.chamber.get d = 0 ∧ (beginReset s .line).tables.chamber.get d = 0 ∧
      (beginReset s .command).tables.chamber.get d = 0) ∧
    (Taking s tag 113 [] → ∃ t, exec .restart s = .next t ∧ t.tables.chamber = s.tables.chamber) ∧
    (Taking s tag 67 [] → ∃ t, exec .halt s = .next t ∧ t.tables.chamber = s.tables.chamber) ∧
    ∀ (d : Division) (v : Nat) (i : EntryNo),
      let u := s.withTables { s.tables with chamber := s.tables.chamber.set d v }
      releaseLead u d = v ∧ pressLead u d i = pressLead s d i + (v : Int) - (s.tables.chamber.get d : Int)

/-- REG-PUT replaces a set by the stops listed, each once, and forms the playback stop image afresh when the set is active; the reply
lists the set ascending, as that of REG-GET does; a set or a stop out of range is refused with RANGE. -/
def Obligations.RegPutReplacesTheSet : Prop :=
  (∀ (s : State) (tag k count : Byte) (stops : List Byte), count.toNat = stops.length →
    Taking s tag 5 (k :: count :: stops) →
      (∀ h : k.toNat < 16, (∀ n ∈ stops, n.toNat < 48) → ∃ b : BitVec 48,
        (∀ n, b.getLsbD n = (stops.map BitVec.toNat).contains n) ∧
          exec .regPut s = .next (replied
            (let t := (withoutHead s).withTables { s.tables with sets := vset s.tables.sets ⟨k.toNat, h⟩ b }
             if s.sched.active = some ⟨k.toNat, h⟩ then reformStops t else t) tag 5 .done
            (k :: byte (membersOf b).length :: (membersOf b).map byte))) ∧
      (16 ≤ k.toNat ∨ (∃ n ∈ stops, 48 ≤ n.toNat) → exec .regPut s = .next (refused s tag 5 .range))) ∧
  ∀ (s : State) (tag k : Byte), Taking s tag 6 [k] →
    (∀ h : k.toNat < 16, let b := vget s.tables.sets ⟨k.toNat, h⟩
      exec .regGet s = .next (replied (withoutHead s) tag 6 .done
        (k :: byte (membersOf b).length :: (membersOf b).map byte))) ∧
    (16 ≤ k.toNat → exec .regGet s = .next (refused s tag 6 .range))

/-- The playback stop image is formed from the active set less the stops of latched divisions, and less all when the escalated flag is
set; a stop frame is marked due when the image changed; nothing else changes. -/
def Obligations.StopImageIsFormedFromTheActiveSet : Prop :=
  ∀ s : State,
    (∀ n : Fin 48, (reformStops s).sched.stopImage.getLsbD n.val =
      ((activeSet s).getLsbD n.val && !(s.prot.escalated || latched s (vget s.tables.stops n).division))) ∧
    (∀ k, s.sched.active = some k → activeSet s = vget s.tables.sets k) ∧ (s.sched.active = none → activeSet s = 0) ∧
    ((reformStops s).sched.stopImage = s.sched.stopImage → reformStops s = s) ∧
    ((reformStops s).sched.stopImage ≠ s.sched.stopImage → reformStops s =
      markDue (s.withSched { s.sched with stopImage := (reformStops s).sched.stopImage }) .stops)

/-- PLAN-PUT refuses an index or a naming field out of range with RANGE, then an entry in play with PLAYING; otherwise it writes every
field, with gap, limits, minimum channels and tempo clamped, and answers the entry as stored. -/
def Obligations.PlanPutChecksThenWritesTheEntry : Prop :=
  ∀ (s : State) (tag i l v r k g0 g1 lead hold tr mask mc t0 t1 t2 t3 : Byte),
    Taking s tag 7 [i, l, v, r, k, g0, g1, lead, hold, tr, mask, mc, t0, t1, t2, t3] →
      let m : BitVec 4 := mask.truncate 4
      let outside : Prop := 64 ≤ i.toNat ∨ l.toNat = 0 ∨ 64 ≤ l.toNat ∨ 8 ≤ v.toNat ∨ (16 ≤ r.toNat ∧ r.toNat ≠ 255) ∨
        3 ≤ k.toNat ∨ tr.toInt < -12 ∨ 12 < tr.toInt ∨ m &&& available s = 0
      let inPlay : Prop := ∃ c, s.follower.current = some c ∧
        (i.toNat = c.val ∨ (s.follower.next.isSome ∧ i.toNat = c.val + 1))
      (outside → exec .planPut s = .next (refused s tag 7 .range)) ∧
      (¬outside → inPlay → exec .planPut s = .next (refused s tag 7 .playing)) ∧
      (¬outside → ¬inPlay → ∀ h : i.toNat < 64, ∃ e : PlanEntry,
        e.list.val = l.toNat ∧ e.verse.val = v.toNat ∧
          e.registration.map Fin.val = (if r.toNat = 255 then none else some r.toNat) ∧ e.start.code = k.toNat ∧
          e.gap = min (word g0 g1) 384 ∧ e.leadIn = max 1 (min lead.toNat 16) ∧ e.hold = max 1 (min hold.toNat 16) ∧
          e.transposition = tr.toInt ∧ e.mask = m ∧
          e.minChannels = max 1 (min mc.toNat (channelsIn (m &&& available s))) ∧
          e.tempo = (if long t0 t1 t2 t3 = 0 then none else some (max 30000 (min (long t0 t1 t2 t3) 200000))) ∧
          exec .planPut s = .next (replied
            (formStop ((withoutHead s).withTables { s.tables with plan := vset s.tables.plan ⟨i.toNat, h⟩ e })) tag 7 .done
            ([i, l, v, r, k] ++ out16 e.gap ++ [byte e.leadIn, byte e.hold, tr, byte m.toNat, byte e.minChannels] ++
              out32 (e.tempo.getD 0))))

/-- PLAN-GET answers the entry as stored. PLAN-SIZE refuses a size of 65 or more with RANGE, then one that would cut off the current or
the engaged next entry with PLAYING, and otherwise stores the size. -/
def Obligations.PlanGetAndPlanSize : Prop :=
  ∀ (s : State) (tag i : Byte),
    (Taking s tag 8 [i] → ∀ h : i.toNat < 64, let e := vget s.tables.plan ⟨i.toNat, h⟩
      exec .planGet s = .next (replied (withoutHead s) tag 8 .done
        ([i, byte e.list.val, byte e.verse.val, byte ((e.registration.map Fin.val).getD 255), byte e.start.code] ++
          out16 e.gap ++ [byte e.leadIn, byte e.hold, BitVec.ofInt 8 e.transposition, byte e.mask.toNat, byte e.minChannels] ++
          out32 (e.tempo.getD 0)))) ∧
    (Taking s tag 8 [i] → 64 ≤ i.toNat → exec .planGet s = .next (refused s tag 8 .range)) ∧
    (Taking s tag 9 [i] →
      let cuts : Prop := ∃ c, s.follower.current = some c ∧
        (i.toNat ≤ c.val ∨ (s.follower.next.isSome ∧ i.toNat ≤ c.val + 1))
      (64 < i.toNat → exec .planSize s = .next (refused s tag 9 .range)) ∧
      (i.toNat ≤ 64 → cuts → exec .planSize s = .next (refused s tag 9 .playing)) ∧
      (i.toNat ≤ 64 → ¬cuts → exec .planSize s = .next (replied
        (formStop ((withoutHead s).withTables { s.tables with planSize := i.toNat })) tag 9 .done [i])))

/-- FOLLOW-PUT refuses an unknown lost action, and a clamped Pmin above the clamped Pmax, with RANGE; otherwise it stores every field
clamped, and a period outside the new range is clamped at once by a period change; FOLLOW-GET answers the profile. -/
def Obligations.FollowPutStoresTheProfileClamped : Prop :=
  ∀ (s : State) (tag : Byte),
    (∀ w kp j ki dm p0 p1 p2 p3 q0 q1 q2 q3 wl la : Byte,
      Taking s tag 10 [w, kp, j, ki, dm, p0, p1, p2, p3, q0, q1, q2, q3, wl, la] →
        let lo := max 30000 (min (long p0 p1 p2 p3) 200000)
        let hi := max 30000 (min (long q0 q1 q2 q3) 200000)
        let p : FollowProfile :=
          { w := max 4 (min w.toNat 48), kp := min kp.toNat 16, j := max 1 (min j.toNat 48), ki := min ki.toNat 64
            dmax := max 1 (min dm.toNat 32), pmin := lo, pmax := hi, warning := max 1 wl.toNat
            lostAction := if la.toNat = 0 then .coast else .finish }
        let t := (withoutHead s).withTables { s.tables with follow := p }
        (1 < la.toNat ∨ hi < lo → exec .followPut s = .next (refused s tag 10 .range)) ∧
        (la.toNat ≤ 1 → lo ≤ hi → exec .followPut s = .next (replied
          (if s.clock.period < lo then settle (changePeriod t lo)
            else if hi < s.clock.period then settle (changePeriod t hi) else t) tag 10 .done
          ([byte p.w, byte p.kp, byte p.j, byte p.ki, byte p.dmax] ++ out32 lo ++ out32 hi ++ [byte p.warning, la])))) ∧
    (Taking s tag 11 [] → let p := s.tables.follow
      exec .followGet s = .next (replied (withoutHead s) tag 11 .done
        ([byte p.w, byte p.kp, byte p.j, byte p.ki, byte p.dmax] ++ out32 p.pmin ++ out32 p.pmax ++
          [byte p.warning, byte (if p.lostAction = .coast then 0 else 1)])))

/-- PICKUP-PUT and SOUND-PUT store every field clamped and answer it; PICKUP-GET and SOUND-GET answer what is stored. -/
def Obligations.PickupAndSoundProfilesAreClamped : Prop :=
  ∀ (s : State) (tag : Byte),
    (∀ k th g0 g1 r0 r1 b c0 c1 h0 h1 l0 l1 : Byte, Taking s tag 12 [k, th, g0, g1, r0, r1, b, c0, c1, h0, h1, l0, l1] →
      let p : PickupProfile :=
        { span := max 1 (min k.toNat 8), threshold := max 4 (min th.toNat 120), gate := min (word g0 g1) 479
          refractory := max 1000 (min (word r0 r1) 25000), boost := min b.toNat 60, cutoffLevel := min (word c0 c1) 479
          cutoffHold := max 2000 (min (word h0 h1) 50000), latency := min (word l0 l1) 2000 }
      exec .pickupPut s = .next (replied ((withoutHead s).withTables { s.tables with pickup := p }) tag 12 .done
        ([byte p.span, byte p.threshold] ++ out16 p.gate ++ out16 p.refractory ++ [byte p.boost] ++ out16 p.cutoffLevel ++
          out16 p.cutoffHold ++ out16 p.latency))) ∧
    (Taking s tag 13 [] → let p := s.tables.pickup
      exec .pickupGet s = .next (replied (withoutHead s) tag 13 .done
        ([byte p.span, byte p.threshold] ++ out16 p.gate ++ out16 p.refractory ++ [byte p.boost] ++ out16 p.cutoffLevel ++
          out16 p.cutoffHold ++ out16 p.latency))) ∧
    (∀ g0 g1 : Byte, Taking s tag 14 [g0, g1] →
      exec .soundPut s = .next (replied ((withoutHead s).withTables { s.tables with gap := min (word g0 g1) 10000 }) tag 14
        .done (out16 (min (word g0 g1) 10000)))) ∧
    (Taking s tag 15 [] → exec .soundGet s = .next (replied (withoutHead s) tag 15 .done (out16 s.tables.gap)))

/-! ### Lists (spec 01, 02) -/

/-- A structural request taken while the list controller is not READY is answered BUSY and changes nothing, whatever its fields. In
READY it is refused with RANGE for a field that names nothing, then with PLAYING for a list in the lock set, then, for STEP-NEW, with
EMPTY-POOL. -/
def Obligations.StructuralRequestsAreCheckedInOrder : Prop :=
  (∀ (s : State) (tag code : Byte) (args : List Byte), Taking s tag code args → s.ctl.phase ≠ .ready →
    ∀ row ∈ [Instr.stepNew, .stepSet, .stepMove, .stepFree, .listEmpty, .listLength],
      requestRow (tag :: code :: args) = row → exec row s = .next (refused s tag code .busy)) ∧
  ∀ (s : State) (tag : Byte) (args : List Byte), s.ctl.phase = .ready →
    (Taking s tag 32 args → Req.fits .stepNew args = true → ∀ m : Option Musical, musical? 1 args = m → ∀ l : ListNo,
      (m = none ∨ phraseList? (byteAt args 0) = none → exec .stepNew s = .next (refused s tag 32 .range)) ∧
      (m.isSome → phraseList? (byteAt args 0) = some l → listLocked s l = true →
        exec .stepNew s = .next (refused s tag 32 .playing)) ∧
      (m.isSome → phraseList? (byteAt args 0) = some l → listLocked s l = false → chain s 0 = [] →
        exec .stepNew s = .next (refused s tag 32 .emptyPool))) ∧
    (Taking s tag 33 args → Req.fits .stepSet args = true →
      (usedStep? s (wordAt args 0) = none ∨ musical? 2 args = none → exec .stepSet s = .next (refused s tag 33 .range)) ∧
      ∀ n m, usedStep? s (wordAt args 0) = some n → musical? 2 args = some m → listLocked s (stepRec s n).list = true →
        exec .stepSet s = .next (refused s tag 33 .playing)) ∧
    (∀ n0 n1 l : Byte, Taking s tag 34 [n0, n1, l] →
      (usedStep? s (word n0 n1) = none ∨ l.toNat = 0 ∨ 64 ≤ l.toNat → exec .stepMove s = .next (refused s tag 34 .range)) ∧
      ∀ n k, usedStep? s (word n0 n1) = some n → phraseList? l.toNat = some k →
        listLocked s (stepRec s n).list = true ∨ listLocked s k = true →
          exec .stepMove s = .next (refused s tag 34 .playing)) ∧
    (∀ n0 n1 : Byte, Taking s tag 35 [n0, n1] →
      (usedStep? s (word n0 n1) = none → exec .stepFree s = .next (refused s tag 35 .range)) ∧
      ∀ n, usedStep? s (word n0 n1) = some n → listLocked s (stepRec s n).list = true →
        exec .stepFree s = .next (refused s tag 35 .playing)) ∧
    (∀ l : Byte, Taking s tag 36 [l] →
      (l.toNat = 0 ∨ 64 ≤ l.toNat → exec .listEmpty s = .next (refused s tag 36 .range)) ∧
      ∀ k, phraseList? l.toNat = some k → listLocked s k = true → exec .listEmpty s = .next (refused s tag 36 .playing)) ∧
    ∀ l t0 t1 : Byte, Taking s tag 37 [l, t0, t1] →
      (l.toNat = 0 ∨ 64 ≤ l.toNat ∨ 32768 < word t0 t1 → exec .listLength s = .next (refused s tag 37 .range)) ∧
      ∀ k, phraseList? l.toNat = some k → word t0 t1 ≤ 32768 → listLocked s k = true →
        exec .listLength s = .next (refused s tag 37 .playing)

/-- The musical fields of a STEP-NEW, after its list, and of a STEP-SET, after its step: refused unless the onset, the duration, the
division and every key lie in range, at most 6 keys, all distinct; otherwise read as given, with all 8 verses when the mask is left
out. -/
def Obligations.MusicalFieldsAreReadInRange : Prop :=
  ∀ (head : List Byte) (o0 o1 d0 d1 dv flags count : Byte) (mask : List Byte) (keys : List Byte),
    head.length = 1 ∨ head.length = 2 → mask.length = (if flags.toNat.testBit 3 then 1 else 0) →
      let args := head ++ [o0, o1, d0, d1, dv, flags, count] ++ mask ++ keys
      (musical? head.length args ≠ none ↔ word o0 o1 ≤ 32767 ∧ 1 ≤ word d0 d1 ∧ word d0 d1 ≤ 16383 ∧ dv.toNat < 4 ∧
        keys.length ≤ 6 ∧ keys.Nodup ∧ ∀ k ∈ keys, k.toNat ≤ (if dv.toNat = 0 then 31 else 60)) ∧
      ∀ m, musical? head.length args = some m → m.onset = word o0 o1 ∧ m.duration = word d0 d1 ∧ m.division.num = dv.toNat ∧
        m.keys.map Fin.val = keys.map BitVec.toNat ∧ m.verses = mask.headD 255#8 ∧ m.expect = flags.toNat.testBit 0 ∧
        m.fermata = flags.toNat.testBit 1 ∧ m.tie = flags.toNat.testBit 2

/-- The structural requests, past their checks, fill the command record and set the phase to BUSY. STEP-NEW takes the head of the free
list, gives it the target list unplaced, and builds its reply. The others change no list yet and build no reply, but for a LIST-EMPTY
of an empty list, whose reply is built at once. -/
def Obligations.StructuralRequestsFillTheCommandRecord : Prop :=
  ∀ (s : State) (tag : Byte), s.ctl.phase = .ready →
    (∀ (args : List Byte) (dest : ListNo) (m : Musical) (n : StepNo) (free : List StepNo),
      Taking s tag 32 args → Req.fits .stepNew args = true → phraseList? (byteAt args 0) = some dest →
        musical? 1 args = some m → listLocked s dest = false → chain s 0 = n :: free →
          exec .stepNew s = .next (((withoutHead s).withStore
            { steps := vset s.store.steps n { stepRec s n with list := dest }, chains := vset s.store.chains 0 free
              lengths := s.store.lengths, unplaced := some n }).withCtl
            { phase := .busy, cmd := { kind := some .stepNew, step := some n, source := none, target := some dest }
              work := some (.newWrite n m dest), tag := tag
              reply := some (doneReply tag 32 (out16 n.val))
              lastVisit := s.partTime })) ∧
    let begun (cmd : CommandRecord) (w : Option Work) (r : Option Reply) : State :=
      (withoutHead s).withCtl { phase := .busy, cmd := cmd, work := w, tag := tag, reply := r, lastVisit := s.partTime }
    (∀ args n m, Taking s tag 33 args → Req.fits .stepSet args = true → usedStep? s (wordAt args 0) = some n →
      musical? 2 args = some m → listLocked s (stepRec s n).list = false →
        exec .stepSet s = .next (begun
          { kind := some .stepSet, step := some n, source := some (stepRec s n).list, target := none }
          (some (.setWrite n m (stepRec s n).list)) none)) ∧
    (∀ (n0 n1 : Byte) (n : StepNo) (l : ListNo), Taking s tag 34 [n0, n1, byte l.val] → usedStep? s (word n0 n1) = some n →
      l ≠ 0 → listLocked s (stepRec s n).list = false → listLocked s l = false →
        exec .stepMove s = .next (begun
          { kind := some .stepMove, step := some n, source := some (stepRec s n).list, target := some l }
          (some (walkFor s n (stepRec s n).music.onset l)) none)) ∧
    (∀ (n0 n1 : Byte) (n : StepNo), Taking s tag 35 [n0, n1] → usedStep? s (word n0 n1) = some n →
      listLocked s (stepRec s n).list = false →
        exec .stepFree s = .next (begun
          { kind := some .stepFree, step := some n, source := some (stepRec s n).list, target := some 0 }
          (some (.free n)) none)) ∧
    (∀ l : ListNo, Taking s tag 36 [byte l.val] → l ≠ 0 → listLocked s l = false →
      let cmd : CommandRecord := { kind := some .listEmpty, step := none, source := some l, target := some 0 }
      exec .listEmpty s = .next (if chain s l = []
        then begun cmd none (some (doneReply tag 36 [byte l.val, 0, 0]))
        else begun cmd (some (.empty l 0)) none)) ∧
    ∀ (l : ListNo) (t0 t1 : Byte), Taking s tag 37 [byte l.val, t0, t1] → l ≠ 0 → word t0 t1 ≤ 32768 →
      listLocked s l = false →
        exec .listLength s = .next (begun { kind := some .listLength, step := none, source := some l, target := none }
          (some (.length l (word t0 t1))) none)

/-- STEP-GET answers the whole record; RANGE for no step; BUSY for the step of the command in flight and for a step that stands in a
list involved in it. LIST-GET answers the header and up to 29 step numbers from the index on; RANGE for no list or an index above 2047;
BUSY for an involved list. That the locked byte is 1 when set and 0 when clear is the model's choice (note 34). -/
def Obligations.StepGetAndListGetReadTheStore : Prop :=
  (∀ (s : State) (tag n0 n1 : Byte), Taking s tag 38 [n0, n1] →
    (2048 ≤ word n0 n1 → exec .stepGet s = .next (refused s tag 38 .range)) ∧
    ∀ n : StepNo, word n0 n1 = n.val → let r := stepRec s n
      (s.ctl.cmd.step = some n ∨ s.ctl.cmd.source = some r.list ∨ s.ctl.cmd.target = some r.list →
        exec .stepGet s = .next (refused s tag 38 .busy)) ∧
      (s.ctl.cmd.step ≠ some n → s.ctl.cmd.source ≠ some r.list → s.ctl.cmd.target ≠ some r.list →
        exec .stepGet s = .next (replied (withoutHead s) tag 38 .done
          ([n0, n1, byte r.list.val] ++ out16 (((previousOf s n).map Fin.val).getD 65535) ++
            out16 (((nextOf s n).map Fin.val).getD 65535) ++ out16 r.music.onset ++ out16 r.music.duration ++
            [byte r.music.division.num,
              byte ((if r.music.expect then 1 else 0) + (if r.music.fermata then 2 else 0) + (if r.music.tie then 4 else 0) + 8),
              byte r.music.keys.length, r.music.verses] ++ r.music.keys.map (fun k => byte k.val) ++
            out16 (BitVec.ofInt 16 (r.deviation.getD (-32768))).toNat ++ [byte r.matchCount, byte r.sounding.code])))) ∧
  ∀ (s : State) (tag l i0 i1 : Byte), Taking s tag 39 [l, i0, i1] →
    (64 ≤ l.toNat ∨ 2047 < word i0 i1 → exec .listGet s = .next (refused s tag 39 .range)) ∧
    ∀ h : l.toNat < 64, word i0 i1 ≤ 2047 → let k : ListNo := ⟨l.toNat, h⟩
      (s.ctl.cmd.source = some k ∨ s.ctl.cmd.target = some k → exec .listGet s = .next (refused s tag 39 .busy)) ∧
      (s.ctl.cmd.source ≠ some k → s.ctl.cmd.target ≠ some k →
        let run := ((chain s k).drop (word i0 i1)).take 29
        exec .listGet s = .next (replied (withoutHead s) tag 39 .done
          ([l] ++ out16 (listCount s k) ++ out16 (((chain s k).head?.map Fin.val).getD 65535) ++
            out16 (((chain s k).getLast?.map Fin.val).getD 65535) ++ out16 (phraseLength s k) ++
            [if listLocked s k then 1 else 0, byte run.length] ++ packSteps run)))

/-- The write visit of STEP-NEW and of STEP-SET writes the fields given and clears the result, STEP-SET leaving the onset to the relink;
a walk's visit examines one step and changes none. No visit while the reply of a STEP-NEW can still be placed is meant here. -/
def Obligations.ListVisitWritesTheStepAndWalks : Prop :=
  ∀ (s : State) (n x : StepNo) (m : Musical) (dest : ListNo) (t : Nat) (rest : List StepNo),
    s.relay.resetting = false → (s.ctl.cmd.kind = some .stepNew → s.relay.slot.isSome ∨ s.ctl.reply = none) →
      let wrote (music : Musical) : State :=
        let r : StepRec := { list := (stepRec s n).list, music := music, deviation := none, matchCount := 0, sounding := .notYet }
        s.withStore { s.store with steps := vset s.store.steps n r }
      let on (u : State) (w : Work) : State := u.withCtl { s.ctl with work := some w, lastVisit := s.partTime }
      (s.ctl.work = some (.newWrite n m dest) →
        exec .listVisit s = .next (on (wrote m) (walkFor (wrote m) n m.onset dest))) ∧
      (s.ctl.work = some (.setWrite n m dest) → m.onset ≠ (stepRec s n).music.onset →
        let u := wrote { m with onset := (stepRec s n).music.onset }
        exec .listVisit s = .next (on u (walkFor u n m.onset dest))) ∧
      (s.ctl.work = some (.setWrite n m dest) → m.onset = (stepRec s n).music.onset →
        exec .listVisit s = .next ((wrote m).withCtl { s.ctl with work := none, lastVisit := s.partTime, reply := some (doneReply s.ctl.tag 33 (out16 n.val)) })) ∧
      (s.ctl.work = some (.walk n t dest (x :: rest)) →
        exec .listVisit s = .next (on s (if (stepRec s x).music.onset ≤ t then .link n t dest (some x)
          else if rest = [] then .link n t dest none else .walk n t dest rest)))

/-- The link or relink visit takes the step out of its chain, puts it into the target chain after the step the walk stopped at, or
first, and writes its onset and list field, in one change; a move or a set then has its reply built. -/
def Obligations.ListVisitLinksTheStep : Prop :=
  ∀ (s : State) (n : StepNo) (t : Nat) (dest : ListNo) (x : Option StepNo),
    s.relay.resetting = false → s.ctl.work = some (.link n t dest x) →
      ∃ u, exec .listVisit s = .next u ∧
        (∀ l, chain u l =
          let c := if l = (stepRec s n).list then (chain s l).erase n else chain s l
          if l = dest then insertAfter c x n else c) ∧
        u.store.lengths = s.store.lengths ∧ (stepRec u n).list = dest ∧
        (stepRec u n).music = { (stepRec s n).music with onset := t } ∧
        (∀ k, k ≠ n → (stepRec u k).list = (stepRec s k).list ∧ (stepRec u k).music = (stepRec s k).music) ∧
        (s.ctl.cmd.kind = some .stepMove → u.ctl = { s.ctl with work := none, lastVisit := s.partTime, reply := some (doneReply s.ctl.tag 34 (out16 n.val ++ [byte dest.val])) }) ∧
        (s.ctl.cmd.kind = some .stepSet → u.ctl = { s.ctl with work := none, lastVisit := s.partTime, reply := some (doneReply s.ctl.tag 33 (out16 n.val)) }) ∧
        (s.ctl.cmd.kind = some .stepNew → s.ctl.reply = none ∨ s.relay.slot = none →
          u.ctl.phase = .ready ∧ u.ctl.cmd = CommandRecord.empty ∧ u.ctl.work = none ∧ u.ctl.reply = none) ∧
        (s.ctl.cmd.kind = some .stepNew → s.ctl.reply.isSome → s.relay.slot.isSome →
          u.ctl = { s.ctl with work := none, lastVisit := s.partTime })

/-- The visits of STEP-FREE and LIST-EMPTY move one step to the tail of the free list, and that of LIST-LENGTH writes the length; the
last visit of a command builds its reply. -/
def Obligations.ListVisitFreesEmptiesAndMeasures : Prop :=
  ∀ (s : State) (n : StepNo) (l : ListNo) (moved t : Nat) (rest : List StepNo),
    s.relay.resetting = false → s.ctl.cmd.kind ≠ some .stepNew → l ≠ 0 →
      let freed (c : List StepNo) : State := s.withStore { s.store with
        steps := vset s.store.steps n { stepRec s n with list := 0 }
        chains := vset (vset s.store.chains l c) 0 (chain s 0 ++ [n]) }
      let ended (u : State) (code : Byte) (data : List Byte) : State := u.withCtl { s.ctl with
        work := none, lastVisit := s.partTime
        reply := some (doneReply s.ctl.tag code (data)) }
      (s.ctl.work = some (.free n) → (stepRec s n).list = l →
        exec .listVisit s = .next (ended (freed ((chain s l).erase n)) 35 (out16 n.val))) ∧
      (s.ctl.work = some (.empty l moved) → chain s l = n :: rest →
        exec .listVisit s = .next (if rest = [] then ended (freed rest) 36 ([byte l.val] ++ out16 (moved + 1))
          else (freed rest).withCtl { s.ctl with work := some (.empty l (moved + 1)), lastVisit := s.partTime })) ∧
      (s.ctl.work = some (.length l t) →
        exec .listVisit s = .next (ended (s.withStore { s.store with lengths := vset s.store.lengths l t }) 37
          ([byte l.val] ++ out16 t)))

/-- With the reply slot empty the controller's reply is placed there: READY and the record empty when no visit is left, else
BUSY-RESULT-POSTED, before the next visit of a STEP-NEW; at READY, out of IDLE, the lists play calls for are the lock set; with play IDLE nothing else changes. -/
def Obligations.ListCommandDonePlacesTheReply : Prop :=
  ∀ (s : State) (r : Reply), s.relay.resetting = false → s.ctl.reply = some r → s.relay.slot = none →
    (∀ w, s.ctl.work = some w → exec .listCommandDone s = .next
      ((s.withRelay { s.relay with slot := some r }).withCtl { s.ctl with reply := none, phase := .busyResultPosted })) ∧
    (∀ w, s.ctl.work = some w → s.ctl.cmd.kind = some .stepNew → exec .listVisit s = exec .listVisit
      ((s.withRelay { s.relay with slot := some r }).withCtl { s.ctl with reply := none, phase := .busyResultPosted })) ∧
    (s.ctl.work = none → s.follower.play = .idle → exec .listCommandDone s = .next
      ((s.withRelay { s.relay with slot := some r }).withCtl
        { s.ctl with phase := .ready, cmd := CommandRecord.empty, work := none, reply := none })) ∧
    (s.ctl.work = none → s.follower.play ≠ .idle → ∃ u, exec .listCommandDone s = .next u ∧
      u.relay.slot.map Reply.data = some r.data ∧
      u.ctl = { s.ctl with phase := .ready, cmd := CommandRecord.empty, work := none, reply := none } ∧
      u.follower.lockSet = calledLists u)

/-! ### Play control (spec 03, 04, 06, 10) -/

/-- MODE refuses a value that names no mode; the mode in force drops the pending mode; REHEARSE and FOLLOW change into one another at
once while IDLE and when every playback key image is empty, otherwise as the pending mode; a change of merging marks the frames that need it. -/
def Obligations.ModeChangesOrWaitsForSilence : Prop :=
  ∀ (s : State) (tag : Byte),
    (∀ b : Byte, Taking s tag 64 [b] → 4 ≤ b.toNat → exec .mode s = .next (refused s tag 64 .range)) ∧
    ∀ m : Mode, Taking s tag 64 [byte m.code] →
      let old := s.follower.mode
      let swap : Prop := (old = .rehearse ∧ m = .follow) ∨ (old = .follow ∧ m = .rehearse)
      (m = old → exec .mode s = .next (replied
        ((withoutHead s).withFollower { s.follower with pendingMode := none }) tag 64 .done [byte m.code])) ∧
      (swap → s.follower.play ≠ .idle → imagesEmpty s = false → exec .mode s = .next (replied
        ((withoutHead s).withFollower { s.follower with pendingMode := some m }) tag 64 .done
        [byte (old.code + 16 * m.code)])) ∧
      ((swap ∧ (s.follower.play = .idle ∨ imagesEmpty s = true)) ∨ (old = .off ∧ m ≠ .off ∧ m ≠ .steady) ∨ (old = .steady ∧ m ≠ .off ∧ m ≠ .steady) →
        ∃ t, exec .mode s = .next (replied t tag 64 .done [byte m.code]) ∧ SameScoreAndTables s t ∧
          t.follower = { s.follower with mode := m, pendingMode := none, stop := t.follower.stop } ∧
          (playing s = false → t.follower.stop = s.follower.stop) ∧ t.handler = (withoutHead s).handler ∧
          t.clock = s.clock ∧ t.sched = s.sched ∧ t.detector = s.detector ∧ t.prot = s.prot ∧
          (merges m = merges old → t.relay = s.relay) ∧
          (merges m ≠ merges old → (∀ d, playImage s d ≠ 0 → .marker (.keys d) ∈ t.relay.downQueue) ∧
            (s.sched.stopImage ≠ 0 → .marker .stops ∈ t.relay.downQueue)))

/-- MODE to OFF stops play and drops the registration; MODE to STEADY empties the window list at once, starts a waiting entry RUNNING
from the wait's position with a PHRASE alert of manner RELEASED, keeps every other play state, and leaves the confidence; where it
alters merging it marks the frames that need it. That onsets held for a list are dropped at a change into STEADY is the model's reading
(note 19), and so is it that the BEAT alert of a boundary the stop crosses carries the count before the stop sets it to 0 (note 29). -/
def Obligations.ModeToOffAndToSteady : Prop :=
  ∀ (s : State) (tag : Byte),
    (Taking s tag 64 [0] → s.follower.mode ≠ .off → ∃ t, exec .mode s = .next (replied t tag 64 .done [0]) ∧
      SameScoreAndTables s t ∧ RegistrationDropped s t ∧ t.prot = s.prot ∧ t.detector = s.detector ∧
      (s.follower.play = .idle → t.clock = s.clock ∧ t.handler = (withoutHead s).handler ∧
        t.follower = { s.follower with mode := .off, pendingMode := none }) ∧
      (s.follower.play ≠ .idle → t.clock = stoppedClock s ∧ (∀ d, Purged s t d) ∧
        t.handler = ((stopAlerts s).foldl postAlert (withoutHead s)).handler ∧
        t.follower = { resting s.follower with mode := .off, pendingMode := none })) ∧
    (Taking s tag 64 [3] → s.follower.mode ≠ .steady → ∃ t, exec .mode s = .next (replied t tag 64 .done [3]) ∧
      SameScoreAndTables s t ∧ t.prot = s.prot ∧ t.detector = s.detector ∧ t.follower.mode = .steady ∧
      t.follower.pendingMode = none ∧ t.follower.window = [] ∧ t.follower.heldOnsets = [] ∧
      t.follower.counter = s.follower.counter ∧
      t.follower.conf = s.follower.conf ∧ t.follower.run = s.follower.run ∧
      (s.follower.play ≠ .waiting → t.follower.play = s.follower.play ∧ t.clock = s.clock ∧ t.sched = s.sched) ∧
      (s.follower.play = .waiting → s.follower.current ≠ none → t.follower.play ≠ .waiting) ∧
      (merges s.follower.mode = true → s.follower.play ≠ .waiting → t.relay = s.relay) ∧
      (merges s.follower.mode = false → (∀ d, playImage s d ≠ 0 → .marker (.keys d) ∈ t.relay.downQueue) ∧
        (s.sched.stopImage ≠ 0 → .marker .stops ∈ t.relay.downQueue)) ∧
      ∀ i, s.follower.play = .waiting → s.clock.state = .held → s.follower.current = some i →
        (s.handler.alerts.length < 16 → .phrase i (planEntry s i).start .released s.partTime ∈ t.handler.alerts) ∧
        (s.follower.next = none → s.clock.x0 ≤ s.clock.highest → readable s i = true →
          phraseLength s (planEntry s i).list ≠ 0 → (∀ n, 0 < (stepRec s n).music.duration) →
          t.follower.play = .running ∧ t.follower.origin = s.clock.x0 ∧ t.follower.timer = none ∧
            t.follower.current = some i ∧ t.clock = { s.clock with state := .moving, t0 := s.partTime }))

/-- START is refused by the first check that fails: MODE, FAULTED, PLAYING, RANGE, BUSY. -/
def Obligations.StartIsCheckedInOrder : Prop :=
  ∀ (s : State) (tag : Byte) (args : List Byte), Taking s tag 65 args → args.length = 0 ∨ args.length = 4 →
    (s.follower.mode = .off → exec .start s = .next (refused s tag 65 .mode)) ∧
    (s.follower.mode ≠ .off → s.prot.escalated = true → exec .start s = .next (refused s tag 65 .faulted)) ∧
    (s.follower.mode ≠ .off → s.prot.escalated = false → s.follower.play ≠ .idle →
      exec .start s = .next (refused s tag 65 .playing)) ∧
    (s.follower.mode ≠ .off → s.prot.escalated = false → s.follower.play = .idle → s.tables.planSize = 0 →
      exec .start s = .next (refused s tag 65 .range)) ∧
    (s.follower.mode ≠ .off → s.prot.escalated = false → s.follower.play = .idle → s.tables.planSize ≠ 0 →
      involved s (planEntry s 0).list = true → exec .start s = .next (refused s tag 65 .busy))

/-- START, past its checks, sets the clock to position 0 with the period of the request, of entry 0 or as it stands, makes entry 0's
registration switch and begins entry 0: WAITING for a CHOIR-LED entry with an expected point, else RUNNING or GAP with a PHRASE
alert. -/
def Obligations.StartBeginsEntryZero : Prop :=
  ∀ (s : State) (tag : Byte) (args : List Byte) (request : Option Nat),
    Taking s tag 65 args →
    ((args = [] ∧ request = none) ∨ ∃ b0 b1 b2 b3, args = [b0, b1, b2, b3] ∧
      request = if long b0 b1 b2 b3 = 0 then none else some (long b0 b1 b2 b3)) →
    s.follower.mode ≠ .off → s.prot.escalated = false → s.follower.play = .idle → s.tables.planSize ≠ 0 →
    involved s (planEntry s 0).list = false →
      let e := planEntry s 0
      let p := clampPeriod s (request.getD (e.tempo.getD s.clock.period))
      let waits : Prop := e.start = .choirLed ∧ s.follower.mode ≠ .steady ∧ hasPoints s 0 = true
      ∃ t, exec .start s = .next (replied t tag 65 .done (out32 p)) ∧ SameScoreAndTables s t ∧ t.prot = s.prot ∧
        t.detector = s.detector ∧
        (waits ∨ (phraseLength s e.list ≠ 0 ∧ ∀ n, 0 < (stepRec s n).music.duration) →
          t.clock = { state := if e.start = .choirLed ∧ s.follower.mode ≠ .steady ∧ hasPoints s 0 = true then .held else .moving
                      t0 := s.partTime, x0 := 0, period := p, pendingTempo := none, highest := 0, beats := 0
                      rate := s.clock.rate } ∧
          t.follower.current = some 0 ∧ t.follower.next = none ∧ t.follower.finish = .none ∧ t.follower.window = [] ∧
          t.follower.lockSet = [e.list] ∧ t.follower.counter = s.follower.counter ∧ t.follower.conf = s.follower.conf ∧
          t.follower.run = 0 ∧
          (∀ k, e.registration = some k → t.sched.active = some k ∧ t.sched.switched = some 0 ∧
            t.sched.stopImage = lessWithdrawn s (vget s.tables.sets k)) ∧
          (e.registration = none → t.sched.active = s.sched.active ∧ t.sched.stopImage = s.sched.stopImage)) ∧
        (waits → t.follower.play = .waiting ∧ t.follower.origin = 0 ∧ t.handler = (withoutHead s).handler ∧
          t.follower.stop = some { pos := 0, kind := .wait, reachedAt := some s.partTime } ∧
          t.follower.timer = some (after s.partTime ((e.leadIn * p : Nat) : Int))) ∧
        (¬waits → phraseLength s e.list ≠ 0 → (∀ n, 0 < (stepRec s n).music.duration) →
          t.follower.play = (if gapOf e = 0 then .running else .gap) ∧ t.follower.origin = gapOf e ∧
          t.handler.alerts = (if s.handler.alerts.length < 16
            then s.handler.alerts ++ [.phrase 0 e.start .organ s.partTime] else s.handler.alerts))

/-- FINISH in GAP, RUNNING or HOLDING makes the finish state PENDING, or HELD while a next entry is engaged; in WAITING it goes to
ENDING; in IDLE and ENDING, and once taken, it changes nothing. That the reply in WAITING is PENDING also where nothing sounds is the
model's reading: the passage from ENDING to IDLE is a row of its own (note 24). -/
def Obligations.FinishEndsPlayAfterTheEntry : Prop :=
  ∀ (s : State) (tag : Byte), Taking s tag 66 [] →
    (s.follower.play = .idle ∨ s.follower.play = .ending ∨ (s.follower.play ≠ .waiting ∧ s.follower.finish ≠ .none) →
      exec .finish s = .next (replied (withoutHead s) tag 66 .done [byte s.follower.finish.code])) ∧
    (s.follower.play = .waiting → exec .finish s = .next (replied ((withoutHead s).withFollower { s.follower with
      finish := .pending, play := .ending, window := [], timer := none, checkHeld := false
      stop := some { pos := s.clock.x0, kind := .end_, reachedAt := some s.partTime } }) tag 66 .done [2])) ∧
    (s.follower.play = .gap ∨ s.follower.play = .running ∨ s.follower.play = .holding → s.follower.finish = .none →
      let f : Finish := if s.follower.next.isSome then .held else .pending
      ∃ t, exec .finish s = .next (replied t tag 66 .done [byte f.code]) ∧
        t = (withoutHead s).withFollower { s.follower with finish := f, stop := t.follower.stop } ∧
        (s.follower.play = .holding → t.follower.stop = s.follower.stop) ∧
        (s.follower.play ≠ .holding → s.follower.next = none → ∀ e, phraseEnd s = some e → openHolds s (position s) = [] →
          t.follower.stop = some { pos := e, kind := .end_, reachedAt := none }))

/-- HALT stops play at once, keeping the confidence, the score, the tables, the detector and the protection unit; while IDLE it changes
nothing. Either way it is answered with IDLE. A boundary the position has reached is crossed by the re-anchor of the stop. FINISH is
answered with the finish state after it, none while IDLE. That a HALT in IDLE leaves the registration is the model's choice between the
rules (note 26); the count in the stop's BEAT alert (note 29), and that a FINISH reply shows the state before ENDING passes to IDLE (note
24), are its readings. -/
def Obligations.HaltStopsPlayAtOnce : Prop :=
  (∀ (s : State) (tag : Byte), Taking s tag 66 [] → ∃ t, exec .finish s =
    .next (replied t tag 66 .done [byte t.follower.finish.code]) ∧
      (s.follower.play = .idle → s.follower.finish = .none → t.follower.finish = .none)) ∧
  ∀ (s : State) (tag : Byte), Taking s tag 67 [] →
    (s.follower.play = .idle → exec .halt s = .next (replied (withoutHead s) tag 67 .done [0])) ∧
    (s.follower.play ≠ .idle → ∃ t, exec .halt s = .next (replied t tag 67 .done [0]) ∧ SameScoreAndTables s t ∧
      t.handler = ((stopAlerts s).foldl postAlert (withoutHead s)).handler ∧ t.prot = s.prot ∧ t.detector = s.detector ∧
      t.follower = resting s.follower ∧ t.clock = stoppedClock s ∧ (∀ d, Purged s t d) ∧ RegistrationDropped s t ∧ t.sched.walkCurrent = none ∧
      t.sched.walkNext = none ∧ (∀ x, x ∈ s.relay.downQueue → x ∈ t.relay.downQueue))

/-- RELEASE changes nothing outside HOLDING and WAITING; it ends a hold inside the phrase, whose position joins the released holds, a hold
at the end of the phrase, from which the next entry begins or, with none, play goes to ENDING, and a wait, whose entry begins at the
position of the wait with a PHRASE alert of manner RELEASED. That the reply of a hold with no next entry is ENDING also where nothing
sounds is the model's reading: the passage from ENDING to IDLE is a row of its own (note 24). -/
def Obligations.ReleaseEndsAHoldOrAWait : Prop :=
  ∀ (s : State) (tag : Byte), Taking s tag 68 [] →
    (s.follower.play ≠ .holding → s.follower.play ≠ .waiting →
      exec .release s = .next (replied (withoutHead s) tag 68 .done [byte s.follower.play.code])) ∧
    (s.follower.play = .holding → s.clock.state = .held → (∀ e, phraseEnd s = some e → s.clock.x0 < e) →
      s.clock.x0 ≤ s.clock.highest →
      ∃ t, exec .release s = .next (replied t tag 68 .done [3]) ∧ SameScoreAndTables s t ∧ t.prot = s.prot ∧
        t.detector = s.detector ∧ t.sched = s.sched ∧ t.handler = (withoutHead s).handler ∧
        t.clock = { s.clock with state := .moving, t0 := s.partTime } ∧
        t.follower = { s.follower with play := .running, timer := none, released := s.clock.x0 :: s.follower.released
                                       stop := t.follower.stop } ∧
        ∀ st, t.follower.stop = some st → s.clock.x0 < st.pos) ∧
    (∀ e, s.follower.play = .holding → phraseEnd s = some e → e ≤ s.clock.x0 →
      (∀ j, nextIndex s = some j → ∃ t, exec .release s = .next (replied t tag 68 .done [byte t.follower.play.code]) ∧
        BegunAtHold s t j) ∧
      (nextIndex s = none → exec .release s = .next (replied ((withoutHead s).withFollower { s.follower with
        play := .ending, timer := none, window := [], checkHeld := false, released := s.clock.x0 :: s.follower.released
        stop := some { pos := s.clock.x0, kind := .end_, reachedAt := some s.partTime } }) tag 68 .done [5]))) ∧
    (∀ i, s.follower.play = .waiting → s.clock.state = .held → s.follower.current = some i →
      ∃ t, exec .release s = .next (replied t tag 68 .done [byte t.follower.play.code]) ∧ SameScoreAndTables s t ∧
        t.prot = s.prot ∧ t.detector = s.detector ∧ t.follower.counter = s.follower.counter ∧
        t.follower.conf = s.follower.conf ∧
        (s.handler.alerts.length < 16 → .phrase i (planEntry s i).start .released s.partTime ∈ t.handler.alerts) ∧
        (s.follower.next = none → s.clock.x0 ≤ s.clock.highest → readable s i = true →
          phraseLength s (planEntry s i).list ≠ 0 → (∀ n, 0 < (stepRec s n).music.duration) →
          t.follower.play = .running ∧ t.follower.origin = s.clock.x0 ∧ t.follower.timer = none ∧
            t.follower.current = some i ∧ t.clock = { s.clock with state := .moving, t0 := s.partTime }))

/-- TEMPO now applies its period, clamped, and drops any pending tempo: while STOPPED the anchor time is the present, while MOVING below
the stop point the position stands and runs on, while HELD the position stays. TEMPO next beat stores it, clamped, as the pending tempo
during play, and applies it at once while IDLE. A timing that is neither, or an absent period, is refused with RANGE; that the row
TEMPO_NOW takes a timing that is neither is the model's choice (note 11). So is it that while STOPPED the highest position, the beat count
and the alerts stand (note 36). -/
def Obligations.TempoAppliesOrWaitsForTheBoundary : Prop :=
  ∀ (s : State) (tag timing b0 b1 b2 b3 : Byte), Taking s tag 69 [timing, b0, b1, b2, b3] →
    let p := clampPeriod s (long b0 b1 b2 b3)
    let x := position s
    let risen (c : Clock) : Clock := { c with
      period := p, pendingTempo := none, highest := max s.clock.highest x, beats := s.clock.beats + BitVec.ofNat 32 (crossings s x) }
    (timing.toNat ≠ 1 → timing.toNat ≠ 0 ∨ long b0 b1 b2 b3 = 0 → exec .tempoNow s = .next (refused s tag 69 .range)) ∧
    (timing = 1 → long b0 b1 b2 b3 = 0 → exec .tempoNextBeat s = .next (refused s tag 69 .range)) ∧
    (timing = 0 → long b0 b1 b2 b3 ≠ 0 → s.clock.state = .stopped → exec .tempoNow s = .next (replied
      ((withoutHead s).withClock { s.clock with t0 := s.partTime, period := p, pendingTempo := none }) tag 69 .done
      (out32 p))) ∧
    (timing = 0 → long b0 b1 b2 b3 ≠ 0 → s.clock.state = .moving → (∀ st, s.follower.stop = some st → x < st.pos) →
      ∃ t, exec .tempoNow s = .next (replied t tag 69 .done (out32 p)) ∧ SameScoreAndTables s t ∧ t.prot = s.prot ∧
        t.detector = s.detector ∧ t.sched = s.sched ∧ t.follower = s.follower ∧
        t.clock = risen { s.clock with t0 := s.partTime, x0 := x }) ∧
    (timing = 0 → long b0 b1 b2 b3 ≠ 0 → s.clock.state = .held → playing s = false →
      s.follower.stop.map StopPoint.pos = some s.clock.x0 →
      ∃ t, exec .tempoNow s = .next (replied t tag 69 .done (out32 p)) ∧ SameScoreAndTables s t ∧ t.prot = s.prot ∧
        t.detector = s.detector ∧ t.sched = s.sched ∧ t.follower = s.follower ∧
        t.clock = risen { s.clock with t0 := s.partTime }) ∧
    (timing = 1 → long b0 b1 b2 b3 ≠ 0 → s.follower.play ≠ .idle → exec .tempoNextBeat s = .next (replied
      ((withoutHead s).withClock { s.clock with pendingTempo := some p }) tag 69 .done (out32 p))) ∧
    (timing = 1 → long b0 b1 b2 b3 ≠ 0 → s.follower.play = .idle → s.clock.state = .stopped →
      exec .tempoNextBeat s = .next (replied
        ((withoutHead s).withClock { s.clock with t0 := s.partTime, period := p, pendingTempo := none }) tag 69 .done
        (out32 p)))

/-- REG-NOW makes a set, or none, the active registration and forms the playback stop image afresh; a set out of range is refused with
RANGE, and with the mode OFF the request with MODE. -/
def Obligations.RegNowDrawsTheSet : Prop :=
  ∀ (s : State) (tag b : Byte), Taking s tag 70 [b] →
    (16 ≤ b.toNat → b.toNat ≠ 255 → exec .regNow s = .next (refused s tag 70 .range)) ∧
    ∀ k : Option SetNo, (k.map Fin.val).getD 255 = b.toNat →
      (s.follower.mode = .off → exec .regNow s = .next (refused s tag 70 .mode)) ∧
      (s.follower.mode ≠ .off → exec .regNow s = .next (replied
        (reformStops ((withoutHead s).withSched { s.sched with active := k })) tag 70 .done [b]))

/-- REPORT-RATE stores the rate, at most 16, and answers it, counting and posting nothing; at the boundaries crossed from then on a BEAT
alert is due exactly when the rate is not 0 and divides a beat count passed through. -/
def Obligations.ReportRateIsStoredAndRuled : Prop :=
  ∀ (s : State) (tag b : Byte), Taking s tag 71 [b] →
    exec .reportRate s = .next (replied ((withoutHead s).withClock { s.clock with rate := min b.toNat 16 }) tag 71 .done
      [byte (min b.toNat 16)]) ∧
    ∀ (u : State) (x : Pos) (now : PartTime), u.clock.rate = min b.toNat 16 → u.handler.alerts.length < 16 →
      let reported : Prop := u.clock.rate ≠ 0 ∧
        ∃ k, 1 ≤ k ∧ k ≤ crossings u x ∧ (u.clock.beats + BitVec.ofNat 32 k).toNat % u.clock.rate = 0
      (reported → (raiseHighest u x now).handler.alerts = u.handler.alerts ++
        [.beat (u.clock.beats + BitVec.ofNat 32 (crossings u x)) u.follower.current (beatIndex u x) now]) ∧
      (¬reported → (raiseHighest u x now).handler = u.handler)

/-! ### Faults, STATUS and resets by request (spec 08, 10) -/

/-- FAULT-CLEAR clears the records of the divisions it names, clears the escalated flag when no record stays LATCHED, forms the playback
stop image afresh, posts one FAULT alert and begins a catch-up walk on every division that leaves override; naming only CLEAR
divisions it changes nothing. The reply carries the protection state after it (the key byte of a CLEAR record is the model's choice,
note 10). -/
def Obligations.FaultClearLiftsLatchedFaults : Prop :=
  ∀ (s : State) (tag b : Byte), Taking s tag 96 [b] →
    (4 ≤ b.toNat → b.toNat ≠ 255 → exec .faultClear s = .next (refused s tag 96 .range)) ∧
    ∀ named : Option Division, (named.map Division.num).getD 255 = b.toNat →
      let hit (d : Division) : Bool := named = none ∨ named = some d
      ((∀ d, hit d = true → latched s d = false) → exec .faultClear s = .next (replied (withoutHead s) tag 96 .done
        (outFaults s ++ [protectionByte s]))) ∧
      ((∃ d, hit d = true ∧ latched s d = true) →
        ∃ t, exec .faultClear s = .next (replied t tag 96 .done (outFaults t ++ [protectionByte t])) ∧
          SameScoreAndTables s t ∧ t.follower = s.follower ∧ t.clock = s.clock ∧ t.detector = s.detector ∧
          (∀ d, t.prot.faults.get d = if hit d then none else s.prot.faults.get d) ∧ t.prot.windLow = s.prot.windLow ∧
          t.prot.escalated = (s.prot.escalated && anyLatched t) ∧ t.sched.stopImage = formedImage t ∧
          t.sched.queues = s.sched.queues ∧ t.sched.holds = s.sched.holds ∧ t.sched.active = s.sched.active ∧
          (s.handler.alerts.length < 16 → t.handler.alerts = s.handler.alerts ++
            [.fault .clear named none (latchedSet t) (protectionByte t) s.partTime]) ∧
          (t.sched.stopImage ≠ s.sched.stopImage → .marker .stops ∈ t.relay.downQueue) ∧
          ∀ d, t.sched.catchUp.get d = if overridden s d && !overridden t d && !(catchParts s).isEmpty
            then some { liftPos := position s, parts := catchParts s } else s.sched.catchUp.get d)

/-- STATUS answers 55 bytes laid out as section 11.3 gives, and changes nothing but the buffer; its reply carries the alerts-lost flag as
it stood. The key byte of a CLEAR fault record is the model's choice (note 10). -/
def Obligations.StatusReportsEveryBlock : Prop :=
  ∀ (s : State) (tag : Byte), Taking s tag 112 [] →
    let fault (d : Division) : List Byte := match s.prot.faults.get d with
      | some f => [byte f.kind.code, byte ((f.key.map Fin.val).getD 255)]
      | none => [0, 255]
    let last : List Byte := match s.detector.lastOnset with
      | some o => out32 o.onset.time.toNat ++ [byte o.onset.strength,
          byte (o.onset.channels.toNat + 16 + (if o.qualified then 32 else 0))] ++ out32 o.delivered.toNat
      | none => List.replicate 10 0
    let data : List Byte :=
      [byte (s.follower.mode.code + 16 * ((s.follower.pendingMode.map Mode.code).getD 0)),
        byte (s.follower.play.code + 16 * s.clock.state.code), byte ((s.follower.current.map Fin.val).getD 255)] ++
      out32 (BitVec.ofInt 32 ((position s - s.follower.origin) / 256)).toNat ++ out32 s.clock.period ++
      out32 (s.clock.pendingTempo.getD 0) ++ out32 s.clock.beats.toNat ++
      [byte s.clock.rate, byte s.follower.conf.code, byte s.follower.counter, byte s.follower.run,
        byte ((s.sched.active.map Fin.val).getD 255)] ++
      fault .pedal ++ fault .great ++ fault .swell ++ fault .positive ++
      [byte ((overrideSet s).toNat + (if s.prot.windLow then 16 else 0) + (if s.prot.escalated then 32 else 0)),
        byte s.ctl.phase.code, byte ((s.ctl.cmd.kind.map CmdKind.code).getD 0)] ++
      out16 ((s.ctl.cmd.step.map Fin.val).getD 65535) ++
      [byte ((s.ctl.cmd.source.map Fin.val).getD 255), byte ((s.ctl.cmd.target.map Fin.val).getD 255),
        byte ((if s.detector.fresh then 0 else 1) + (if s.handler.alertsLost then 2 else 0) + 4 * s.handler.cause.code),
        byte s.relay.node.toNat] ++ last ++ out32 s.partTime.toNat
    data.length = 55 ∧
      exec .status s = .next (placeReply (withoutHead s)
        { tag := tag, code := 112, result := .done, data := data, clearsLost := s.handler.alertsLost })

/-- RESTART stops any play, drops the registration, resets the confidence, applies a pending mode and rests the detector, keeping the
score, the tables, the command in flight, the protection unit and the queues. A boundary the position has reached is crossed by the
re-anchor of the stop; that its BEAT alert stands before the CONFIDENCE alert, with the count before the stop sets it to 0, is the model's
reading (note 29). -/
def Obligations.RestartResetsPlayAndKeepsTheScore : Prop :=
  ∀ (s : State) (tag : Byte), Taking s tag 113 [] →
    ∃ t, exec .restart s = .next (replied t tag 113 .done []) ∧ SameScoreAndTables s t ∧ t.prot = s.prot ∧
      RegistrationDropped s t ∧ t.clock = stoppedClock s ∧
      (let f := if s.follower.play = .idle then s.follower else resting s.follower
       t.follower = { f with
         mode := s.follower.pendingMode.getD s.follower.mode, pendingMode := none, counter := 0, conf := .locked, run := 0 }) ∧
      (s.follower.play ≠ .idle → ∀ d, Purged s t d) ∧
      t.detector.gather = none ∧ t.detector.cutoff = .quiet ∧ t.detector.boostUntil = none ∧
      t.detector.lastOnset = s.detector.lastOnset ∧ t.detector.fresh = s.detector.fresh ∧
      (∀ c : Fin 4, (vget t.detector.channels c).history = (vget s.detector.channels c).history ∧
        ((available s).getLsbD c.val = true → (vget t.detector.channels c).state = .armed)) ∧
      (let told : List Alert := if s.follower.conf = .locked then [] else [.confidence .locked 0 s.partTime]
       t.handler = ((stopAlerts s ++ told).foldl postAlert (withoutHead s)).handler) ∧
      ∀ x, x ∈ s.relay.downQueue → x ∈ t.relay.downQueue

/-- RESET is answered DONE and nothing more is taken; a request whose code names no request, or whose arguments do not fit, is answered
UNKNOWN and changes nothing. -/
def Obligations.ResetAndUnknownRequestsAreAnswered : Prop :=
  ∀ s : State,
    (∀ tag, Taking s tag 114 [] → exec .reset s = .next (replied
      ((withoutHead s).withHandler { (withoutHead s).handler with resetTaken := true }) tag 114 .done []) ∧
      ∀ t, exec .reset s = .next t → handlerFree t = false) ∧
    (∀ tag code args, Taking s tag code args → (∀ r, Req.ofCode? code.toNat = some r → r.fits args = false) →
      exec .unknownRequest s = .next (refused s tag code .unknown)) ∧
    ∀ p : List Byte, p.length < 2 → s.handler.buffer.head? = some p → handlerFree s = true → ∃ tag code : Byte,
      (∀ b, p = [b] → tag = b) ∧
        exec .unknownRequest s = .next (refused (s.withFreeCount (s.freeCount + 1)) tag code .unknown)

/-! ### The relay path (spec 09) -/

/-- A valid console KEYS frame replaces its division's console key image and marks the key frame due, a valid STOPS frame the console
stop image and the stop frame; a marker already in the queue absorbs the marking. A MANAGE frame for this node enters the request buffer
while fewer than 4 requests wait, one for another node the downstream queue while fewer than 8 pass-through frames wait. A frame that
fails a test, or finds no room, changes nothing; while a full reset runs or bypass is asserted none is taken. -/
def Obligations.UpstreamFramesAreTakenByKind : Prop :=
  (∀ (s : State) (bytes : List Byte), s.relay.resetting = true ∨ s.relay.bypass = true →
    ∀ row ∈ upstreamRows bytes, exec row s = .next s) ∧
  ∀ (s : State) (bytes : List Byte), s.relay.resetting = false → s.relay.bypass = false →
    (∀ (f : Frame) (d : Division), readFrame bytes = some f → f.kind = 1 → f.addr = d.num → f.payload.length = 8 →
      (imageOfPayload f.payload).toNat < 2 ^ (d.top + 1) →
        exec (.consoleKeysFrame bytes) s = .next (s.withRelay { s.relay with
          consoleKeys := s.relay.consoleKeys.set d (imageOfPayload f.payload)
          downQueue := if .marker (.keys d) ∈ s.relay.downQueue then s.relay.downQueue
            else s.relay.downQueue ++ [.marker (.keys d)] })) ∧
    (∀ f : Frame, readFrame bytes = some f → f.kind = 2 → f.addr = 0 → f.payload.length = 6 →
      exec (.consoleStopsFrame bytes) s = .next (s.withRelay { s.relay with
        consoleStops := stopsOfPayload f.payload
        downQueue := if .marker .stops ∈ s.relay.downQueue then s.relay.downQueue
          else s.relay.downQueue ++ [.marker .stops] })) ∧
    (readFrame bytes = none → ∀ row ∈ upstreamRows bytes, exec row s = .next s) ∧
    (∀ f : Frame, readFrame bytes = some f → f.kind = 1 →
      (4 ≤ f.addr ∨ f.payload.length ≠ 8 ∨
        ∃ d : Division, f.addr = d.num ∧ 2 ^ (d.top + 1) ≤ (imageOfPayload f.payload).toNat) →
          exec (.consoleKeysFrame bytes) s = .next s) ∧
    (∀ f : Frame, readFrame bytes = some f → f.kind = 2 → f.addr ≠ 0 ∨ f.payload.length ≠ 6 →
      exec (.consoleStopsFrame bytes) s = .next s) ∧
    (∀ f : Frame, readFrame bytes = some f → f.kind ≠ 1 → f.kind ≠ 2 → f.kind ≠ 4 →
      ∀ row ∈ upstreamRows bytes, exec row s = .next s) ∧
    ∀ f : Frame, readFrame bytes = some f → f.kind = 4 →
      (f.addr = s.relay.node.toNat → s.handler.buffer.length < 4 →
        exec (.manageFrame bytes) s = .next (s.withHandler { s.handler with buffer := s.handler.buffer ++ [f.payload] })) ∧
      (f.addr = s.relay.node.toNat → 4 ≤ s.handler.buffer.length → exec (.manageFrame bytes) s = .next s) ∧
      (f.addr ≠ s.relay.node.toNat → passCount s.relay.downQueue < 8 →
        exec (.manageFrame bytes) s = .next (s.withRelay { s.relay with downQueue := s.relay.downQueue ++ [.pass bytes] })) ∧
      (f.addr ≠ s.relay.node.toNat → 8 ≤ passCount s.relay.downQueue → exec (.manageFrame bytes) s = .next s)

/-- A REPLY or ALERT frame of a node further down is handed to the forward queue as it stands while fewer than 8 wait. A frame that
fails the tests of its header, a CHEST frame whose payload is not that of a chest report, and a frame of a kind the lane does not carry
are neither read nor forwarded, by whichever row they come. While a full reset runs or bypass is asserted, and until downstream receive
begins after that, no frame is taken. -/
def Obligations.DownstreamFramesAreForwardedOrDiscarded : Prop :=
  (∀ (s : State) (bytes : List Byte),
    s.relay.resetting = true ∨ s.relay.bypass = true ∨ s.relay.downReceiving = false →
      ∀ row ∈ downstreamRows bytes, exec row s = .next s) ∧
  ∀ (s : State) (bytes : List Byte), s.relay.resetting = false → s.relay.bypass = false → s.relay.downReceiving = true →
    let forwarded : State := if s.relay.forward.length < 8
      then s.withRelay { s.relay with forward := s.relay.forward ++ [bytes] } else s
    (∀ f : Frame, readFrame bytes = some f → f.kind = 5 → exec (.downstreamReply bytes) s = .next forwarded) ∧
    (∀ f : Frame, readFrame bytes = some f → f.kind = 6 → exec (.downstreamAlert bytes) s = .next forwarded) ∧
    exec (.downstreamFrameDiscard bytes) s = .next s ∧
    ∀ row ∈ downstreamRows bytes,
      (readFrame bytes = none → exec row s = .next s) ∧
      (∀ f : Frame, readFrame bytes = some f → f.kind = 3 → f.payload.length ≠ 2 → exec row s = .next s) ∧
      ∀ f : Frame, readFrame bytes = some f → f.kind ≠ 3 → f.kind ≠ 5 → f.kind ≠ 6 → exec row s = .next s

/-- The downstream transmitter takes the head of the queue onto a free lane: a pass-through frame as received, for a marker a frame with
the console image, united with the playback image in FOLLOW and STEADY, under a right check; every console key is in it; the end of
the sending frees the lane. While a full reset runs or bypass is asserted nothing is taken for sending. -/
def Obligations.DownstreamTakeMergesConsoleAndPlayback : Prop :=
  ∀ s : State,
    (s.relay.resetting = true ∨ s.relay.bypass = true → exec .downstreamTake s = .next s) ∧
    (s.relay.resetting = false → s.relay.bypass = false → s.relay.downLane = none → ∀ item rest,
      s.relay.downQueue = item :: rest → ∃ bytes, exec .downstreamTake s = .next (s.withRelay { s.relay with
        downQueue := rest, downLane := some bytes }) ∧
        (∀ b, item = .pass b → bytes = b) ∧
        (∀ d, item = .marker (.keys d) → ∃ f : Frame, readFrame bytes = some f ∧ f.kind = 1 ∧ f.addr = d.num ∧
          imageOfPayload f.payload = s.relay.consoleKeys.get d |||
            (if s.follower.mode = .follow ∨ s.follower.mode = .steady then playImage s d else 0) ∧
          ∀ k, (s.relay.consoleKeys.get d).getLsbD k = true → (imageOfPayload f.payload).getLsbD k = true) ∧
        (item = .marker .stops → ∃ f : Frame, readFrame bytes = some f ∧ f.kind = 2 ∧ f.addr = 0 ∧
          stopsOfPayload f.payload = s.relay.consoleStops |||
            (if s.follower.mode = .follow ∨ s.follower.mode = .steady then s.sched.stopImage else 0))) ∧
    exec .downstreamSendDone s = .next (s.withRelay { s.relay with downLane := none })

/-- The upstream transmitter takes the oldest forwarded frame first, then the reply, then the oldest alert; the alerts-lost flag is
cleared by the taking of a STATUS reply that carried it; into the empty slot goes the controller's reply, else the handler's; the end of
the sending frees the lane. An alert posted while 16 wait is discarded, sets the flag, and keeps every STATUS reply not yet taken from
clearing it; what it reports has changed all the same, as a pickup that goes STALE shows. While a full reset runs or bypass is asserted
nothing is taken for sending. -/
def Obligations.UpstreamTakesByPrecedence : Prop :=
  (∀ s : State, s.relay.resetting = true ∨ s.relay.bypass = true → exec .upstreamTake s = .next s) ∧
  ∀ s : State, s.relay.resetting = false → s.relay.bypass = false →
    (s.relay.upLane = none → ∀ f rest, s.relay.forward = f :: rest → exec .upstreamTake s = .next (s.withRelay
      { s.relay with forward := rest, upLane := some { bytes := f, endsInReset := false } })) ∧
    (s.relay.upLane = none → s.relay.forward = [] → ∀ r, s.relay.slot = some r → s.ctl.reply = none →
      exec .upstreamTake s = .next ((s.withRelay { s.relay with
          slot := s.handler.waiting
          upLane := some { bytes := formFrame 5 s.relay.node.toNat ([r.tag, r.code, byte r.result.code] ++ r.data)
                           endsInReset := decide (r.code = 114#8) && decide (r.result = .done) } }).withHandler
        { s.handler with waiting := none, alertsLost := s.handler.alertsLost && !r.clearsLost })) ∧
    (s.relay.upLane = none → s.relay.forward = [] → ∀ r q, s.relay.slot = some r → s.ctl.reply = some q →
      ∃ t, exec .upstreamTake s = .next t ∧ t.relay.slot.map Reply.data = some q.data ∧ t.ctl.reply = none ∧
        t.handler.waiting.map Reply.data = s.handler.waiting.map Reply.data) ∧
    (s.relay.upLane = none → s.relay.forward = [] → s.relay.slot = none → ∀ a rest, s.handler.alerts = a :: rest →
      exec .upstreamTake s = .next ((s.withRelay { s.relay with
          upLane := some { bytes := formFrame 6 s.relay.node.toNat (outAlert a), endsInReset := false } }).withHandler
        { s.handler with alerts := rest })) ∧
    (∀ f, s.relay.upLane = some f → f.endsInReset = false →
      exec .upstreamSendDone s = .next (s.withRelay { s.relay with upLane := none })) ∧
    (16 ≤ s.handler.alerts.length →
      let kept : Option Reply → Option Reply := Option.map fun r => { r with clearsLost := false }
      let lost (t : State) : Prop :=
        t.handler = { s.handler with alertsLost := true, waiting := kept s.handler.waiting } ∧
          t.relay = { s.relay with slot := kept s.relay.slot }
      (∀ a, lost (postAlert s a)) ∧
      (∀ a, s.detector.fresh = true → s.detector.lastArrival = some a → 5000 ≤ tdiff s.partTime a →
        ∃ t, exec .staleTimerExpiry s = .next t ∧ lost t ∧ t.detector.fresh = false) ∧
      ∀ (r : Reply) (a : Alert), s.relay.upLane = none → s.relay.forward = [] → s.relay.slot = some r → s.ctl.reply = none →
        ∃ t, exec .upstreamTake (postAlert s a) = .next t ∧ t.handler.alertsLost = true) ∧
    (s.handler.alerts.length < 16 → ∀ a, postAlert s a = s.withHandler { s.handler with alerts := s.handler.alerts ++ [a] })

/-! ### Full resets (spec 01, 02, 08, 09, 10) -/

/-- Power-on, the reset input and the last byte of a RESET reply begin a full reset: every block at its values after a full reset,
nothing waiting, the cause recorded, bypass asserted, both transmit lanes free; within it no frame is taken from either receive lane and
none for sending, and bypass stays asserted. That the values are taken at the beginning of the reset,
with the channel count latched before it, and that part time stands until its end, is the model's reading (note 8). -/
def Obligations.FullResetClearsEveryBlock : Prop :=
  ∀ s : State, ∃ t u v : State, exec .powerOn s = .next t ∧ exec .resetInput s = .next u ∧
    (∀ f, s.relay.upLane = some f → f.endsInReset = true → exec .upstreamSendDone s = .next v) ∧
    t.handler.cause = .power ∧ u.handler.cause = .line ∧ v.handler.cause = .command ∧ u.pins.resetLine = true ∧
    ∀ r ∈ [t, u, v],
      chain r 0 = List.finRange 2048 ∧ (∀ l, l ≠ 0 → chain r l = [] ∧ phraseLength r l = 0 ∧ listLocked r l = false) ∧
      (∀ n, stepRec r n = StepRec.reset) ∧ r.ctl.phase = .ready ∧ r.ctl.cmd = CommandRecord.empty ∧ r.ctl.work = none ∧
      r.ctl.reply = none ∧ r.tables.planSize = 0 ∧ (∀ k, vget r.tables.sets k = 0) ∧ (∀ d, r.tables.chamber.get d = 0) ∧
      r.clock = Clock.reset ∧ r.follower = Follower.reset ∧ r.prot = Protection.reset ∧ (∀ d, overridden r d = false) ∧
      (∀ d, queue r d = [] ∧ playImage r d = 0 ∧ r.sched.catchUp.get d = none ∧
        ∀ k, vget (r.sched.holds.get d) k = 0 ∧ vget (r.sched.keyUps.get d) k = none) ∧
      r.sched.walkCurrent = none ∧ r.sched.walkNext = none ∧ r.sched.stalled = none ∧ r.sched.switched = none ∧
      (∀ i, planEntry r i = PlanEntry.reset s.detector.fourChannels) ∧
      (∀ n, vget r.tables.stops n = StopEntry.reset n.val) ∧ r.tables.follow = FollowProfile.reset ∧
      r.tables.pickup = PickupProfile.reset ∧ r.tables.gap = 3000 ∧
      r.detector = Detector.reset s.detector.fourChannels ∧ r.handler.resetTaken = false ∧ r.sched.active = none ∧ r.sched.stopImage = 0 ∧
      r.detector.fresh = false ∧ r.handler.buffer = [] ∧ r.handler.alerts = [] ∧ r.handler.alertsLost = false ∧
      r.handler.waiting = none ∧ r.relay.slot = none ∧ r.relay.forward = [] ∧ r.relay.downQueue = [] ∧
      r.relay.downLane = none ∧ r.relay.upLane = none ∧ (∀ d, r.relay.consoleKeys.get d = 0) ∧ r.relay.consoleStops = 0 ∧
      r.relay.bypass = true ∧ r.relay.downReceiving = false ∧ r.relay.resetting = true ∧ r.partTime = s.partTime ∧
      ∀ bytes, ∀ row ∈ upstreamRows bytes ++ downstreamRows bytes ++
        [.downstreamTake, .upstreamTake, .bypassRelease, .downstreamReceiveStart], exec row r = .next r

/-- The end of a full reset latches the straps and sets part time to 0, bypass still asserted; until bypass is released no frame is taken
from either receive lane and none for sending, and both transmit lanes begin free; after the release downstream receive begins. The
model's choices: outside their places these events change nothing (note 1), and the straps are latched by the end of the reset, not by its
beginning (note 8). -/
def Obligations.ResetEndLatchesTheStraps : Prop :=
  ∀ (s : State) (straps : BitVec 4) (four : Bool),
    (s.relay.resetting = true → ∃ t, exec (.resetEnd straps four) s = .next t ∧ t.partTime = 0 ∧ t.relay.node = straps ∧
      t.detector = Detector.reset four ∧ t.relay.bypass = s.relay.bypass ∧ t.relay.resetting = false ∧
      t.pins = { nodeStraps := straps, fourChannels := four, resetLine := false } ∧
      (s.relay.bypass = true → ∀ bytes, ∀ row ∈ upstreamRows bytes ++ downstreamRows bytes ++
        [.downstreamTake, .upstreamTake, .downstreamReceiveStart], exec row t = .next t) ∧
      (LinesShut s → ∃ u, exec .bypassRelease t = .next u ∧ u.relay.bypass = false ∧ u.relay.downLane = none ∧
        u.relay.upLane = none) ∧
      (∀ i, (planEntry t i).mask = if four then 15#4 else 3#4) ∧ t.handler = s.handler ∧ t.store = s.store ∧
      t.follower = s.follower ∧ t.clock = s.clock ∧ t.sched = s.sched ∧ t.prot = s.prot ∧ t.ctl = s.ctl) ∧
    (s.relay.resetting = false → exec (.resetEnd straps four) s = .next s) ∧
    exec .bypassRelease s = .next (if s.relay.resetting then s else s.withRelay { s.relay with bypass := false }) ∧
    (s.relay.resetting = false → s.relay.bypass = false →
      exec .downstreamReceiveStart s = .next (s.withRelay { s.relay with downReceiving := true })) ∧
    (s.relay.resetting = true ∨ s.relay.bypass = true → exec .downstreamReceiveStart s = .next s)

/-! ### Chest reports (spec 08) -/

/-- A CIPHER or DRIVER report on a CLEAR division latches it, purges it unless the wind override had emptied it, withdraws its stops and
posts one FAULT alert; with another division LATCHED it escalates: the registration dropped and any play stopped. On a LATCHED division
it only replaces the record, with an alert when kind or key differ. The frame is forwarded in every case; an address that names no
division is only forwarded. That a third or fourth latching drops the registration again is the model's reading (note 27), and so is it
that a BEAT alert of a boundary which the stop of play crosses stands before the FAULT alert (note 29). -/
def Obligations.ChestFaultsLatchAndEscalate : Prop :=
  ∀ (s : State) (bytes : List Byte) (f : Frame) (row : Instr) (report key : Byte),
    s.relay.resetting = false → s.relay.bypass = false → s.relay.downReceiving = true →
      readFrame bytes = some f → f.kind = 3 → f.payload = [report, key] →
      (row = .cipher bytes ∧ report = 1) ∨ (row = .driver bytes ∧ report = 2) →
        let forward := if s.relay.forward.length < 8 then s.relay.forward ++ [bytes] else s.relay.forward
        (4 ≤ f.addr → exec row s = .next (s.withRelay { s.relay with forward := forward })) ∧
        ∀ (d : Division) (r : FaultRec), f.addr = d.num →
          r.kind = (if report = 1 then .cipher else .driver) →
          r.key.map Fin.val = (if report = 1 ∧ key.toNat ≤ d.top then some key.toNat else none) →
            let alert (t : State) : Alert := .fault r.kind.cause (some d) r.key (latchedSet t) (protectionByte t) s.partTime
            (s.prot.faults.get d = some r → exec row s = .next (s.withRelay { s.relay with forward := forward })) ∧
            (∀ old, s.prot.faults.get d = some old → old ≠ r → s.handler.alerts.length < 16 →
              let u := s.withProt { s.prot with faults := s.prot.faults.set d (some r) }
              exec row s = .next ((u.withRelay { s.relay with forward := forward }).withHandler
                { s.handler with alerts := s.handler.alerts ++ [alert u] })) ∧
            (s.prot.faults.get d = none → (s.follower.play = .idle → s.follower.current = none) →
              let second : Bool := Division.all.any fun e => decide (e ≠ d) && (s.prot.faults.get e).isSome
              ∃ t, exec row s = .next t ∧
                t.prot = { faults := s.prot.faults.set d (some r), windLow := s.prot.windLow
                           escalated := s.prot.escalated || second } ∧
                t.store = s.store ∧ t.ctl = s.ctl ∧ t.tables = s.tables ∧ t.detector = s.detector ∧
                (s.prot.windLow = false → Purged s t d) ∧ t.sched.stopImage = formedImage t ∧
                (t.sched.stopImage ≠ s.sched.stopImage → .marker .stops ∈ t.relay.downQueue) ∧
                (let risen : List Alert := if second = true ∧ s.follower.play ≠ .idle then stopAlerts s else []
                 let u := (risen ++ [alert t]).foldl postAlert s
                 t.handler = u.handler ∧ t.relay = { u.relay with forward := forward, downQueue := t.relay.downQueue }) ∧
                (second = false → t.follower = s.follower ∧ t.clock = s.clock) ∧
                (second = true → t.sched.active = none ∧ t.sched.stopImage = 0) ∧
                (second = true → s.follower.play ≠ .idle →
                  t.follower = resting s.follower ∧ t.clock = stoppedClock s ∧ ∀ e, Purged s t e))

/-- WIND-LOW puts every division under override and purges those that were not; WIND-OK ends the wind override and begins a catch-up
walk on every CLEAR division when there is anything to resume. Each posts one FAULT alert, withdraws no stop and leaves the follower
and the clock; a report of the state that already stands is only forwarded. -/
def Obligations.WindReportsOverrideAndLift : Prop :=
  ∀ (s : State) (bytes : List Byte) (f : Frame) (key : Byte),
    s.relay.resetting = false → s.relay.bypass = false → s.relay.downReceiving = true → readFrame bytes = some f → f.kind = 3 →
      let forward := if s.relay.forward.length < 8 then s.relay.forward ++ [bytes] else s.relay.forward
      let kept (t : State) (c : FaultCause) : Prop :=
        t.prot.faults = s.prot.faults ∧ t.prot.escalated = s.prot.escalated ∧ t.store = s.store ∧ t.ctl = s.ctl ∧
          t.tables = s.tables ∧ t.detector = s.detector ∧ t.follower = s.follower ∧ t.clock = s.clock ∧
          (StopsFormed s → StopsFormed t) ∧
          (s.handler.alerts.length < 16 →
            t.handler = { s.handler with
              alerts := s.handler.alerts ++ [.fault c none none (latchedSet t) (protectionByte t) s.partTime] } ∧
              t.relay = { s.relay with forward := forward, downQueue := t.relay.downQueue })
      (f.payload = [3, key] →
        (s.prot.windLow = true → exec (.windLow bytes) s = .next (s.withRelay { s.relay with forward := forward })) ∧
        (s.prot.windLow = false → ∃ t, exec (.windLow bytes) s = .next t ∧ kept t .windLow ∧ t.prot.windLow = true ∧
          (∀ d, overridden t d = true) ∧ (∀ d, s.prot.faults.get d = none → Purged s t d) ∧
          (∀ d, s.prot.faults.get d ≠ none → queue t d = queue s d ∧ t.sched.holds.get d = s.sched.holds.get d) ∧
          (s.follower.current = none → t.sched.active = s.sched.active ∧ t.sched.stopImage = s.sched.stopImage))) ∧
      (f.payload = [4, key] →
        (s.prot.windLow = false → exec (.windOk bytes) s = .next (s.withRelay { s.relay with forward := forward })) ∧
        (s.prot.windLow = true → ∃ t, exec (.windOk bytes) s = .next t ∧ kept t .windOk ∧ t.prot.windLow = false ∧
          (∀ d, overridden t d = (s.prot.faults.get d).isSome) ∧
          t.relay.downQueue = s.relay.downQueue ∧
          t.sched = { s.sched with catchUp := t.sched.catchUp } ∧
          ∀ d, t.sched.catchUp.get d = if (s.prot.faults.get d).isNone && !(catchParts s).isEmpty
            then some { liftPos := position s, parts := catchParts s } else s.sched.catchUp.get d))

/-! ### The onset detector (spec 05) -/

/-- A level frame that fails a test, or repeats the held sequence number, changes nothing. A STALE pickup becomes FRESH with its
histories filled whole and a PICKUP alert; a FRESH one has the missing frames filled with the last level, then enters the frame's
levels. A gather open for 2,000 tu closes into the last-onset record, and its onset is delivered before the firings are tested. The ARMED
channels of the applicable mask whose rise reaches the effective threshold and whose level reaches the gate become REFRACTORY and open a
gather, on the closing frame a new one; with one open, those of its own mask join it. The cutoff state moves by its table on every frame.
What the follower, the clock and the rest take from the frame is the onset of the gather that closes, then the cutoff that completes with
its two times; nothing else. That the firings and the cutoff of a closing frame are tested under the mask that stands after its onset is
the model's reading (note 42). -/
def Obligations.LevelFramesFillHistoriesAndFire : Prop :=
  ∀ (s : State) (bytes : List Byte), s.relay.resetting = false →
    (readLevels s.detector.fourChannels bytes = none → exec (.levelFrame bytes) s = .next s) ∧
    ∀ (q : Byte) (levels : List Nat), readLevels s.detector.fourChannels bytes = some (q, levels) →
      let now := s.partTime
      let p := s.tables.pickup
      let ended (c : Fin 4) : ChanState := match (channel s c).state with
        | .refractory e => if 0 ≤ tdiff now e then .armed else .refractory e
        | .armed => .armed
      let rises (h : List Nat) : Int := (h.getD 0 0 : Int) - (h.getD p.span 0 : Int)
      let threshold : Nat := p.threshold + (match s.detector.boostUntil with
        | some b => if tdiff now b < 0 then p.boost else 0
        | none => 0)
      let fires (hist : Fin 4 → List Nat) (m : BitVec 4) (c : Fin 4) : Prop := (available s).getLsbD c.val = true ∧
        m.getLsbD c.val = true ∧ ended c = .armed ∧ (threshold : Int) ≤ rises (hist c) ∧ p.gate ≤ levels.getD c.val 0
      let tested (hist : Fin 4 → List Nat) (m : BitVec 4) (t : State) : Prop :=
        ∀ c : Fin 4, (available s).getLsbD c.val = true →
          (fires hist m c → (channel t c).state = .refractory (after now (p.refractory : Int))) ∧
          (¬fires hist m c → (channel t c).state = ended c)
      let opens (hist : Fin 4 → List Nat) (m : BitVec 4) (t : State) : Prop :=
        ((∀ c, ¬fires hist m c) → t.detector.gather = none) ∧
        ∀ c0, fires hist m c0 → ∃ g, t.detector.gather = some g ∧ g.opened = now ∧ g.mask = m ∧
          g.time = after now (-(p.latency : Int)) ∧ (∀ c : Fin 4, g.channels.getLsbD c.val = true ↔ fires hist m c) ∧
          (rises (hist c0)).toNat ≤ g.strength ∧ ∃ c, fires hist m c ∧ (rises (hist c)).toNat = g.strength
      let loud (m : BitVec 4) : Prop := ∃ c : Fin 4, (available s).getLsbD c.val = true ∧ m.getLsbD c.val = true ∧
        p.cutoffLevel ≤ levels.getD c.val 0
      let noCutoff : Prop := ∀ b, s.detector.cutoff = .falling b → tdiff now b < (p.cutoffHold : Int)
      let cutoffMoves (m : BitVec 4) (t : State) : Prop :=
        (loud m → t.detector.cutoff = .sounding) ∧
        (¬loud m → 0 < p.cutoffLevel → t.detector.cutoff = match s.detector.cutoff with
          | .quiet => .quiet
          | .sounding => .falling now
          | .falling b => if (p.cutoffHold : Int) ≤ tdiff now b then .quiet else .falling b)
      let cutoffAfter (v : State) (m : BitVec 4) (t : State) : Prop :=
        (noCutoff ∨ loud m → t = v.withDetector t.detector) ∧
        ∀ b, s.detector.cutoff = .falling b → (p.cutoffHold : Int) ≤ tdiff now b → ¬loud m → 0 < p.cutoffLevel →
          ∃ w, w = v.withDetector w.detector ∧ w.detector.cutoff = .quiet ∧
            t = deliverCutoff w { completed := now, belowSince := b }
      (s.detector.fresh = true → s.detector.seq = some q → exec (.levelFrame bytes) s = .next s) ∧
      (s.detector.fresh = false → ∃ t, exec (.levelFrame bytes) s = .next t ∧ t.detector.fresh = true ∧
        t.detector.seq = some q ∧ t.detector.lastArrival = some now ∧
        (∀ c : Fin 4, (available s).getLsbD c.val = true →
          (channel t c).history = List.replicate 9 (levels.getD c.val 0)) ∧
        (s.handler.alerts.length < 16 → .pickup false now ∈ t.handler.alerts) ∧
        (s.detector.gather = none →
          let whole (c : Fin 4) : List Nat := List.replicate 9 (levels.getD c.val 0)
          let m := applicableMask s
          tested whole m t ∧ opens whole m t ∧ cutoffMoves m t ∧ cutoffAfter (postAlert s (.pickup false now)) m t)) ∧
      ∀ last : Byte, s.detector.fresh = true → s.detector.seq = some last → q ≠ last →
        let missing := (q - last - 1).toNat
        let entered (c : Fin 4) : List Nat :=
          (levels.getD c.val 0 :: (List.replicate missing ((channel s c).history.headD 0) ++ (channel s c).history)).take 9
        let onset (g : Gather) : Onset := { time := g.time, strength := min 255 g.strength, channels := g.channels }
        let closed (g : Gather) : LastOnset :=
          { onset := onset g, delivered := now, qualified := decide (minimumInForce s ≤ channelsIn g.channels) }
        (∀ c : Fin 4, (available s).getLsbD c.val = true → (channel s c).history ≠ []) →
          ∃ t, exec (.levelFrame bytes) s = .next t ∧ t.detector.fresh = true ∧ t.detector.seq = some q ∧
            t.detector.lastArrival = some now ∧ t.detector.boostUntil = s.detector.boostUntil ∧
            (∀ c : Fin 4, (available s).getLsbD c.val = true → (channel t c).history = entered c) ∧
            (∀ c : Fin 4, (available s).getLsbD c.val = false → channel t c = channel s c) ∧
            (∀ g, s.detector.gather = some g → 2000 ≤ tdiff now g.opened → t.detector.lastOnset = some (closed g) ∧
              ∃ u, u = s.withDetector { s.detector with
                  seq := some q, lastArrival := some now, gather := none, lastOnset := some (closed g)
                  channels := u.detector.channels } ∧
                let v := deliverOnset u (onset g)
                let m := applicableMask v
                tested entered m t ∧ opens entered m t ∧ cutoffMoves m t ∧ cutoffAfter v m t) ∧
            ((∀ g, s.detector.gather = some g → tdiff now g.opened < 2000) →
              t.detector.lastOnset = s.detector.lastOnset ∧ cutoffMoves (applicableMask s) t ∧
                cutoffAfter s (applicableMask s) t) ∧
            (∀ g, s.detector.gather = some g → tdiff now g.opened < 2000 →
              let joins (c : Fin 4) : Prop := fires entered g.mask c
              tested entered g.mask t ∧ ((∀ c, ¬joins c) → t.detector.gather = some g) ∧
              ((∃ c, joins c) → ∃ h, t.detector.gather = some h ∧ h.opened = g.opened ∧ h.mask = g.mask ∧
                h.time = (if tdiff (after now (-(p.latency : Int))) g.time < 0 then after now (-(p.latency : Int)) else g.time) ∧
                (∀ c : Fin 4, h.channels.getLsbD c.val = true ↔ g.channels.getLsbD c.val = true ∨ joins c) ∧
                g.strength ≤ h.strength ∧ (∀ c, joins c → (rises (entered c)).toNat ≤ h.strength) ∧
                (h.strength = g.strength ∨ ∃ c, joins c ∧ (rises (entered c)).toNat = h.strength))) ∧
            (s.detector.gather = none → tested entered (applicableMask s) t ∧ opens entered (applicableMask s) t)

/-- The timers of the detector, of the clock's anchor and of the last key-up times: at 5,000 tu without a good frame the pickup becomes
STALE with a PICKUP alert, at boost-until the boost ends, at 2^30 tu a last key-up time becomes none, and the anchor of a MOVING clock is
renewed at the present time and position, the position formula answering at most one subtick less from then on. The model's choices: the
renewal leaves the highest position (note 47), and before its time a row changes nothing (note 1). -/
def Obligations.TimersExpireAndAnchorsAreRenewed : Prop :=
  (∀ s : State, s.relay.resetting = false →
    (∀ a, s.detector.fresh = true → s.detector.lastArrival = some a → 5000 ≤ tdiff s.partTime a →
      s.handler.alerts.length < 16 → ∃ t, exec .staleTimerExpiry s = .next t ∧
        t = (s.withDetector { s.detector with
            fresh := false, seq := none, lastArrival := none, gather := none, cutoff := .quiet
            channels := t.detector.channels }).withHandler
          { s.handler with alerts := s.handler.alerts ++ [.pickup true (after a 5000)] } ∧
        ∀ c : Fin 4, (channel t c).history = (channel s c).history ∧
          ((available s).getLsbD c.val = true → (channel t c).state = .armed)) ∧
    ((∀ a, s.detector.fresh = true → s.detector.lastArrival = some a → tdiff s.partTime a < 5000) →
      exec .staleTimerExpiry s = .next s) ∧
    (∀ b, s.detector.boostUntil = some b → exec .boostExpiry s = .next (if 0 ≤ tdiff s.partTime b
      then s.withDetector { s.detector with boostUntil := none } else s)) ∧
    (∀ d k u, vget (s.sched.keyUps.get d) k = some u → exec (.keyUpTimeExpiry d k) s = .next
      (if 1073741824 ≤ tdiff s.partTime u then s.withSched { s.sched with
        keyUps := s.sched.keyUps.set d (vset (s.sched.keyUps.get d) k none) } else s)) ∧
    (s.clock.state = .moving → 1073741824 ≤ tdiff s.partTime s.clock.t0 →
      exec .anchorRenewal s = .next (s.withClock { s.clock with t0 := s.partTime, x0 := position s })) ∧
    (s.clock.state ≠ .moving ∨ tdiff s.partTime s.clock.t0 < 1073741824 → exec .anchorRenewal s = .next s)) ∧
  ∀ (c : Clock) (now later : PartTime), 0 < c.period → tdiff later c.t0 = tdiff now c.t0 + tdiff later now →
    let renewed := { c with t0 := now, x0 := rawAt c now }
    rawAt renewed later ≤ rawAt c later ∧ rawAt c later ≤ rawAt renewed later + 1

/-! ### The beat clock (spec 04) -/

/-- At its reach time the next boundary is counted: the highest position rises to it, the beat count by 1, and a BEAT alert is posted
when the report rate divides the new count. A pending tempo is applied by a re-anchor at the boundary and its reach time: its new line
leaves the clock MOVING below the stop point and HELD at it else, which the follower is told of (END sends it to ENDING), and the highest
position rises on to the greater of the positions now on the two lines, with every boundary passed counted. At the stop point the clock
is HELD and the follower enters HOLDING with its timer and a HOLD alert (a hold of the engaged next entry beyond the phrase end apart),
ENDING, or WAITING for a CHOIR-LED next entry with an expected point; one without begins ORGAN-LED there with its gap, unless it is empty
or carries a tempo, of which the last clause says nothing. The model's choice: after the grid has moved, the boundary counted is the
lowest of the new grid above the last recorded height, be it behind the position, and a boundary taken late has its pending tempo's line
begin at its reach time (note 28). -/
def Obligations.BoundariesAreCountedAndStopPointsHold : Prop :=
  ∀ s : State, s.relay.resetting = false → s.clock.state = .moving →
    (let b := nextBoundary s
     let alert : Alert := .beat (s.clock.beats + 1#32) s.follower.current ((b - s.follower.origin) / 24576) (reachTime s b)
     let alerts := if s.clock.rate ≠ 0 ∧ (s.clock.beats + 1#32).toNat % s.clock.rate = 0 then s.handler.alerts ++ [alert]
       else s.handler.alerts
     b ≤ position s → ∃ u, exec .beatBoundary s = .next (settle u) ∧ SameScoreAndTables s u ∧ u.prot = s.prot ∧
      u.detector = s.detector ∧ u.sched = s.sched ∧ u.follower = s.follower ∧
      (u.clock.state = .moving → settle u = u) ∧
      (s.clock.pendingTempo = none → u.clock = { s.clock with highest := b, beats := s.clock.beats + 1#32 } ∧
        (s.handler.alerts.length < 16 → u.handler.alerts = alerts)) ∧
      ∀ p, s.clock.pendingTempo = some p →
        let c : Clock := { s.clock with t0 := reachTime s b, x0 := b, period := clampPeriod s p, pendingTempo := none }
        let y := rawAt c s.partTime
        let more (x : Pos) : Nat := ((x - s.follower.origin) / 24576 - (b - s.follower.origin) / 24576).toNat
        let risen (x : Pos) : Clock := { c with highest := x, beats := s.clock.beats + 1#32 + BitVec.ofNat 32 (more x) }
        ((∀ st, s.follower.stop = some st → y < st.pos) → u.clock = risen (max (position s) y) ∧
          (s.handler.alerts.length < 16 → more (max (position s) y) = 0 → u.handler.alerts = alerts)) ∧
        ∀ st, s.follower.stop = some st → st.pos ≤ y →
          u.clock = { risen st.pos with state := .held, t0 := s.partTime, x0 := st.pos } ∧
          (s.handler.alerts.length < 16 → more st.pos = 0 → u.handler.alerts = alerts) ∧
          (st.kind = .end_ → playing s = true → (settle u).clock = u.clock ∧ (settle u).follower.play = .ending)) ∧
    ∀ st : StopPoint, s.follower.stop = some st → st.pos ≤ rawAt s.clock s.partTime →
      s.follower.play = .running ∨ s.follower.play = .gap →
        let x := st.pos
        let n := crossings s x
        let held : Clock := { s.clock with
          state := .held, t0 := s.partTime, x0 := x, highest := max s.clock.highest x
          beats := s.clock.beats + BitVec.ofNat 32 n
          period := if n = 0 then s.clock.period else (s.clock.pendingTempo.map (clampPeriod s)).getD s.clock.period
          pendingTempo := if n = 0 then s.clock.pendingTempo else none }
        ∃ t, exec .stopPointReached s = .next t ∧
          (st.kind = .hold → s.follower.next = none ∨ (∀ e, phraseEnd s = some e → x ≤ e) → SameScoreAndTables s t ∧ t.sched = s.sched ∧ t.clock = held ∧
            ∀ i, s.follower.current = some i →
              t.follower = { s.follower with
                play := .holding, stop := some { pos := x, kind := .hold, reachedAt := some s.partTime }
                timer := some (after s.partTime (((planEntry s i).hold * held.period : Nat) : Int)) } ∧
              (s.handler.alerts.length < 15 →
                .hold (some i) ((x - s.follower.origin) / 256) s.partTime ∈ t.handler.alerts)) ∧
          (st.kind = .end_ → SameScoreAndTables s t ∧ t.sched = s.sched ∧ t.clock = held ∧
            t.follower = { s.follower with
              play := .ending, window := [], timer := none, checkHeld := false
              stop := some { pos := x, kind := .end_, reachedAt := some s.partTime } }) ∧
          (∀ j, st.kind = .wait → nextIndex s = some j → s.follower.next = none → (planEntry s j).start = .choirLed →
            involved s (planEntry s j).list = false → hasPoints s j = false → (planEntry s j).tempo = none →
            phraseLength s (planEntry s j).list ≠ 0 → (∀ n, 0 < (stepRec s n).music.duration) →
              let o := x + gapOf (planEntry s j)
              t.follower.current = some j ∧ t.follower.next = none ∧ t.follower.origin = o ∧ t.follower.timer = none ∧
              t.follower.play = (if x < o then .gap else .running) ∧ t.clock = { held with state := .moving } ∧
              (s.handler.alerts.length < 15 → .phrase j .choirLed .organ s.partTime ∈ t.handler.alerts)) ∧
          (∀ j, st.kind = .wait → nextIndex s = some j → s.follower.next = none → (planEntry s j).start = .choirLed →
            s.follower.mode ≠ .steady → hasPoints s j = true →
              SameScoreAndTables s t ∧
              t.clock = (match (planEntry s j).tempo with
                | none => held
                | some p => { held with period := clampPeriod s p, pendingTempo := none }) ∧
              t.follower.play = .waiting ∧ t.follower.current = some j ∧ t.follower.next = none ∧
              t.follower.origin = s.follower.origin ∧ t.follower.window = s.follower.window ∧
              t.follower.stop = some { pos := x, kind := .wait, reachedAt := some s.partTime } ∧
              t.follower.timer = some (after s.partTime (((planEntry s j).leadIn * t.clock.period : Nat) : Int)))

/-- The due time of a position is the earliest time at which the position formula gives it, exactly it at 24,576 tu a beat and slower; a
stop point keeps what lies beyond it, and at it but for END, from being due; STOPPED gives none. A correction moves the position
back by at most J ticks, its phase part rounded half away from zero within J ticks, its period part within Dmax, the period in
[Pmin, Pmax]. In MOVING it is the re-anchor at the onset time and the position then plus the phase part, or, where that would leave the
position more than J ticks back, at the present and J ticks back; HELD keeps the position; in STOPPED it is not made. -/
def Obligations.DueTimesAndCorrections : Prop :=
  (∀ (s : State) (x : Pos), 0 < s.clock.period →
    let span := ceilDiv ((x - s.clock.x0) * (s.clock.period : Int)) 24576
    (∀ o : Int, -2147483648 ≤ o → o < 2147483648 → (x ≤ rawAt s.clock (after s.clock.t0 o) ↔ span ≤ o)) ∧
    (24576 ≤ s.clock.period → -2147483648 ≤ span → span < 2147483648 → rawAt s.clock (after s.clock.t0 span) = x) ∧
    (s.clock.state = .stopped → dueIn s x = none) ∧
    (s.clock.state ≠ .stopped →
      let formula := some (if s.clock.state = .moving then tdiff s.clock.t0 s.partTime + span else span)
      (s.follower.stop = none → dueIn s x = formula) ∧
      ∀ st, s.follower.stop = some st →
        (x < st.pos → dueIn s x = formula) ∧
        (x = st.pos → dueIn s x = if st.kind = .end_ then formula else none) ∧
        (st.pos < x → dueIn s x = none))) ∧
  ∀ (s : State) (tOn : PartTime) (e : Int) (both : Bool),
    let f := s.tables.follow
    let j : Int := (f.j : Int) * 256
    let t := correct s tOn e both
    (∃ v : Int, 2 * (16 * v - e * (f.kp : Int)).natAbs ≤ 16 ∧
      (2 * (16 * v - e * (f.kp : Int)).natAbs = 16 → (e * (f.kp : Int)).natAbs < 16 * v.natAbs) ∧
      phasePart f e = max (-j) (min v j)) ∧
    (let limit : Int := ((s.clock.period * f.dmax / 256 : Nat) : Int)
     periodPart f s.clock.period e =
      max (-limit) (min (-(((s.clock.period : Int) * e * (f.ki : Int)).tdiv 1572864)) limit)) ∧
    (s.clock.state = .stopped → t = s) ∧
    (s.clock.state = .held → s.follower.stop.map StopPoint.pos = some s.clock.x0 → t.clock.state = .held ∧
      t.clock.x0 = s.clock.x0) ∧
    (let p : Nat := if both then max f.pmin (min ((s.clock.period : Int) + periodPart f s.clock.period e).toNat f.pmax)
       else s.clock.period
     let xa := rawAt s.clock tOn + phasePart f e
     let x := rawAt { s.clock with t0 := tOn, x0 := xa, period := p } s.partTime
     (s.clock.state = .held → t = reanchor s s.partTime s.clock.x0 p) ∧
     (s.clock.state = .moving → position s - j ≤ x → t = reanchor s tOn xa p) ∧
     (s.clock.state = .moving → x < position s - j → t = reanchor s s.partTime (position s - j) p)) ∧
    (s.clock.state = .moving → position s - j ≤ position t) ∧
    (s.clock.state ≠ .stopped → s.clock.pendingTempo = none →
      (both = false → t.clock.period = s.clock.period) ∧
      (both = true → f.pmin ≤ f.pmax → f.pmin ≤ t.clock.period ∧ t.clock.period ≤ f.pmax ∧
        t.clock.period = max f.pmin (min ((s.clock.period : Int) + periodPart f s.clock.period e).toNat f.pmax)))

/-! ### The follower (spec 06) -/

/-- A point whose window the position enters is added to the window list, the lowest making room when 8 are held, unless its window lies
behind or the mode is STEADY, and is never reached again; a point whose window the position has left is removed and counts as a miss,
8 on the counter. An onset matches the nearest open point whose window holds its position, the lower of two equally near. -/
def Obligations.WindowPointsOpenCloseAndMatch : Prop :=
  (∀ (s : State) (p : Point), s.relay.resetting = false → playing s = true →
    (remainingPoints s).head? = some p → p.pos - (p.width : Int) * 256 ≤ position s →
      ∃ t, exec .pointOpen s = .next t ∧
        t = s.withFollower { s.follower with
          window := t.follower.window, pointsCurrent := t.follower.pointsCurrent, pointsNext := t.follower.pointsNext } ∧
        p ∉ remainingPoints t ∧
        (s.follower.mode = .steady ∨ p.pos + (p.width : Int) * 256 < position s → t.follower.window = s.follower.window) ∧
        (s.follower.mode ≠ .steady → position s ≤ p.pos + (p.width : Int) * 256 →
          (s.follower.window.length < 8 → t.follower.window.Perm (p :: s.follower.window)) ∧
          (∀ q rest, s.follower.window = q :: rest → s.follower.window.length = 8 →
            s.follower.window.Pairwise (fun a b => a.pos ≤ b.pos) → t.follower.window.Perm (p :: rest)) ∧
          (s.follower.window.Pairwise (fun a b => a.pos ≤ b.pos) →
            t.follower.window.Pairwise fun a b => a.pos ≤ b.pos))) ∧
  (∀ (s : State) (p : Point), s.relay.resetting = false → playing s = true →
    s.follower.window.find? (fun q => decide (q.pos + (q.width : Int) * 256 < position s)) = some p →
      ∃ t, exec .pointClose s = .next t ∧ t.follower.window = s.follower.window.erase p ∧ SameScoreAndTables s t ∧
        t.clock = s.clock ∧ t.sched = s.sched ∧ t.detector = s.detector ∧ t.prot = s.prot ∧
        (s.follower.conf = .lost → t.follower.counter = s.follower.counter ∧ t.follower.run = 0 ∧ t.handler = s.handler) ∧
        (s.follower.conf ≠ .lost → s.follower.counter + 8 ≤ 255 →
          t.follower.counter = s.follower.counter + 8 ∧ t.follower.run = s.follower.run ∧
          t.follower.conf = (if s.follower.counter + 8 < 128 then .locked else .doubtful) ∧
          (s.handler.alerts.length < 15 → t.handler.alerts = s.handler.alerts ++
            (if s.follower.counter < s.tables.follow.warning ∧ s.tables.follow.warning ≤ s.follower.counter + 8
              then [.warning (s.follower.counter + 8) s.partTime] else []) ++
            (if t.follower.conf = s.follower.conf then []
              else [.confidence t.follower.conf (s.follower.counter + 8) s.partTime]))) ∧
        (s.follower.conf ≠ .lost → 255 < s.follower.counter + 8 →
          t.follower.counter = 255 ∧ t.follower.conf = .lost ∧ t.follower.run = 0 ∧
          (s.tables.follow.lostAction = .finish → s.follower.finish = .none →
            t.follower.finish = if s.follower.next.isSome then .held else .pending) ∧
          (s.tables.follow.lostAction = .coast → t.follower.finish = s.follower.finish))) ∧
  ∀ (s : State) (x : Pos),
    let holds (q : Point) : Prop := q ∈ s.follower.window ∧ q.pos - (q.width : Int) * 256 ≤ x ∧ x ≤ q.pos + (q.width : Int) * 256
    (matchFor s x = none ↔ ∀ q, ¬holds q) ∧
    ∀ p, matchFor s x = some p → holds p ∧ ∀ q, holds q →
      (p.pos - x).natAbs < (q.pos - x).natAbs ∨ ((p.pos - x).natAbs = (q.pos - x).natAbs ∧ p.pos ≤ q.pos)

/-- An onset is passed over in OFF and STEADY, in IDLE and ENDING, and when not qualified. Else, in GAP and RUNNING, and in a wait or a hold
when sung before its reach time, it matches the nearest open point, or is unexpected and raises the counter by 1. A match writes its
deviation and raises the match count in every step of the point, lowers the counter by 1, or in LOST raises the run, and removes the
point; it makes a correction with both parts in LOCKED, with the phase part in DOUBTFUL, and none in LOST, but at run 8 a hard sync that
ends the loss, and with it the hold or the wait it finds (in a wait, the model's choice, note 15). An onset held up by a wait or a hold
leaves the position there. The clauses on clock and window say what is left when the move passes no open point and reaches no further
one. A match that completes a recovery writes its results and counts once, its hard sync not again (the model's choice, note 45). -/
def Obligations.OnsetsAreMatchedAndCounted : Prop :=
  ∀ (s : State) (o : Onset),
    let x := onsetPosition s o.time
    let t := deliverOnset s o
    let stopped : Prop := s.follower.play = .waiting ∨ s.follower.play = .holding
    let sung : Prop := playing s = true ∨ (stopped ∧ afterReach s o.time = false)
    let announced : Prop := s.handler.alerts.length < 15 → t.follower.conf ≠ s.follower.conf →
      .confidence t.follower.conf t.follower.counter s.partTime ∈ t.handler.alerts
    (¬Takes s o ∨ s.follower.play = .idle ∨ s.follower.play = .ending → t = s) ∧
    (∀ st r, s.follower.stop = some st → st.reachedAt = some r → (afterReach s o.time = true ↔ 0 ≤ tdiff o.time r)) ∧
    (Takes s o → sung → matchFor s x = none →
      let n := s.follower.counter + 1
      (s.follower.conf = .lost → t = s.withFollower { s.follower with run := 0 }) ∧
      (s.follower.conf ≠ .lost → n ≤ 255 → s.handler.alerts.length < 15 → t = (s.withFollower { s.follower with
        counter := n, conf := if n < 128 then .locked else .doubtful }).withHandler { s.handler with
          alerts := s.handler.alerts ++
            (if s.follower.counter < s.tables.follow.warning ∧ s.tables.follow.warning ≤ n then [.warning n s.partTime] else []) ++
            (if s.follower.conf = (if n < 128 then .locked else .doubtful) then []
              else [.confidence (if n < 128 then .locked else .doubtful) n s.partTime]) }) ∧
      (s.follower.conf ≠ .lost → 255 < n → t.follower.counter = 255 ∧ t.follower.conf = .lost ∧ t.follower.run = 0 ∧ announced ∧
        (s.tables.follow.lostAction = .coast → t = ((s.withFollower { s.follower with
          counter := 255, conf := .lost, run := 0 }).withHandler t.handler).withRelay t.relay) ∧
        (s.tables.follow.lostAction = .finish → s.follower.play ≠ .waiting → s.follower.finish = .none →
          t.follower.finish = if s.follower.next.isSome then .held else .pending) ∧
        (s.tables.follow.lostAction = .finish → s.follower.play = .waiting →
          t.follower.play = .ending ∧ t.follower.finish = .pending))) ∧
    ∀ p, Takes s o → sung → matchFor s x = some p → p.steps.Nodup →
      let e := p.pos - x
      let w := s.follower.window.erase p
      MatchWritten s t p e ∧ t.tables = s.tables ∧ t.ctl = s.ctl ∧ t.detector = s.detector ∧ t.prot = s.prot ∧
      (s.follower.conf ≠ .lost →
        let c := correct s o.time e (decide (s.follower.counter - 1 < 128))
        (playing s = true → s.clock.state = .moving → c.clock.state = .moving → NonePassed s w (position c) →
          MatchCounted s t ∧ announced ∧ t.clock = c.clock ∧ t.sched = s.sched ∧ t.follower = withPoints s.follower w t) ∧
        (stopped → s.clock.state = .held → s.follower.stop.map StopPoint.pos = some s.clock.x0 →
          MatchCounted s t ∧ announced ∧ t.clock = c.clock ∧ t.clock.state = .held ∧ t.clock.x0 = s.clock.x0 ∧
            t.sched = s.sched ∧ t.follower = withPoints s.follower w t)) ∧
      (s.follower.conf = .lost → s.follower.run < 7 →
        stopped ∨ (s.clock.state = .moving ∧ NonePassed s w (position s)) →
          MatchCounted s t ∧ t.clock = s.clock ∧ t.sched = s.sched ∧ t.handler = s.handler ∧
            t.follower = withPoints s.follower w t) ∧
      (s.follower.conf = .lost → s.follower.run = 7 → s.clock.state ≠ .stopped →
        let u := releaseStop s
        let c := reanchor u o.time p.pos u.clock.period
        let above := pointsAbove u.follower.window p.pos
        (playing s = true → u = s) ∧
        (s.follower.play = .holding → u = s.withFollower { s.follower with
          play := .running, timer := none, released := s.clock.x0 :: s.follower.released, stop := u.follower.stop }) ∧
        (∀ i, s.follower.play = .waiting → s.follower.current = some i →
          u.follower.play = .running ∧ u.follower.current = some i ∧ u.follower.origin = s.clock.x0 ∧ u.follower.timer = none ∧
            (s.handler.alerts.length < 16 → .phrase i (planEntry s i).start .synced s.partTime ∈ u.handler.alerts)) ∧
        (playing u = true → c.clock.state = .moving → NonePassed u above (position c) →
          MatchCounted s t ∧ t.clock = c.clock ∧ t.sched = u.sched ∧ t.follower = withPoints u.follower above t ∧
          (s.handler.alerts.length < 14 → .confidence .locked 0 s.partTime ∈ t.handler.alerts)))

/-- An onset sung at or after the reach time syncs a wait: the entry begins at the position of the wait, and a hard sync to its first
expected point follows. In a hold it releases the hold and syncs to the first point at or after it, of the current entry, or at the
phrase end of the next, which then begins there without gap or wait; with no point it releases the hold and acts as a FINISH. While the
list it needs cannot be read it is held. A hard sync writes E - X into the steps of its point, counts as a match, sets the anchor to the
onset time and E, and leaves the points above E; what is said of it holds when it passes no open point and reaches no further one. A
cutoff ends a hold in FOLLOW and REHEARSE, and changes nothing elsewhere. The model's choice: among the points of an engaged next entry
only those open or not yet opened are found (note 37). -/
def Obligations.OnsetsAndCutoffsEndWaitsAndHolds : Prop :=
  (∀ (s : State) (o : Onset), Takes s o → afterReach s o.time = true → s.clock.state = .held →
    let x := s.clock.x0
    let t := deliverOnset s o
    let held : State := s.withFollower { s.follower with heldOnsets := s.follower.heldOnsets ++ [o] }
    let synced (u : State) (p : Point) : Prop :=
      let c := reanchor u o.time p.pos u.clock.period
      let above := pointsAbove u.follower.window p.pos
      p.steps.Nodup → c.clock.state = .moving → NonePassed (walkPast u p) above (position c) →
        MatchWritten s t p (p.pos - x) ∧ MatchCounted s t ∧ t.clock = c.clock ∧ t.follower = withPoints u.follower above t ∧
          t.tables = s.tables ∧ t.ctl = s.ctl ∧ t.detector = s.detector ∧ t.prot = s.prot
    (∀ i, s.follower.play = .waiting → s.follower.current = some i →
      (readable s i = false → t = held) ∧
      ∀ p rest, readable s i = true → pointsFrom s i x 0 = p :: rest →
        let u := beginAt s x x
        synced u p ∧ u.clock = s.clock ∧ u.follower.play = .running ∧ u.follower.origin = x ∧ u.follower.timer = none ∧
          u.follower.current = some i ∧
          (s.handler.alerts.length < 13 → .phrase i (planEntry s i).start .synced s.partTime ∈ t.handler.alerts)) ∧
    (s.follower.play = .holding →
      (∀ p, pointInCurrent s x = some p →
        let u := formStop (s.withFollower { s.follower with
          play := .running, timer := none, released := x :: s.follower.released })
        synced u p ∧ ((reanchor u o.time p.pos u.clock.period).clock.state = .moving → t.sched = s.sched)) ∧
      (pointInCurrent s x = none →
        (∀ i, atPhraseEnd s x = true → nextIndex s = some i →
          (nextReadable s i = false → t = held) ∧
          (nextReadable s i = true → ∀ p, pointInNext s i x = some p →
            let u := withPlay (beginAt (applyEntryTempo (makeCurrent (dropHold s) i) i) (onsetOrigin s x) x) .running
            synced u p ∧ u.follower.current = some i ∧ u.follower.next = none ∧ u.follower.origin = onsetOrigin s x ∧
              ((planEntry s i).tempo = none → u.clock = s.clock) ∧
              (∀ q, (planEntry s i).tempo = some q → u.clock.period = clampPeriod s q) ∧
              (s.handler.alerts.length < 12 → .phrase i (planEntry s i).start .synced s.partTime ∈ t.handler.alerts)) ∧
          (nextReadable s i = true → pointInNext s i x = none → t = finishPlay (releaseHold s))) ∧
        (atPhraseEnd s x = false → x ≤ s.clock.highest → s.follower.finish = .none →
          t = (s.withClock { s.clock with state := .moving, t0 := s.partTime }).withFollower { s.follower with
            play := .running, timer := none, released := x :: s.follower.released
            finish := if s.follower.next.isSome then .held else .pending, stop := t.follower.stop }) ∧
        (atPhraseEnd s x = true → nextIndex s = none → t = s.withFollower { s.follower with
          play := .ending, timer := none, window := [], checkHeld := false, released := x :: s.follower.released
          stop := some { pos := x, kind := .end_, reachedAt := some s.partTime } })))) ∧
  ∀ (s : State) (k : Cutoff),
    let listening : Prop := s.follower.mode = .follow ∨ s.follower.mode = .rehearse
    (¬listening ∨ s.follower.play ≠ .holding → deliverCutoff s k = s) ∧
    (listening → s.follower.play = .holding →
      (s.clock.state = .held → (∀ e, phraseEnd s = some e → s.clock.x0 < e) → s.clock.x0 ≤ s.clock.highest →
        ∃ st, deliverCutoff s k = (s.withClock { s.clock with state := .moving, t0 := s.partTime }).withFollower { s.follower with
          play := .running, timer := none, released := s.clock.x0 :: s.follower.released, stop := st }) ∧
      ∀ e, phraseEnd s = some e → e ≤ s.clock.x0 →
        (∀ j, nextIndex s = some j → BegunAtHold s (deliverCutoff s k) j) ∧
        (nextIndex s = none → deliverCutoff s k = s.withFollower { s.follower with
          play := .ending, timer := none, window := [], checkHeld := false, released := s.clock.x0 :: s.follower.released
          stop := some { pos := s.clock.x0, kind := .end_, reachedAt := some s.partTime } }))

/-- At its origin a phrase in GAP becomes RUNNING. At a phrase end without a stop point the next entry becomes current, from the origin
fixed at its engagement or from the phrase end and its gap, with a PHRASE alert and its tempo as a period change there; its list is then
the lock set. A next entry whose origin is settled is engaged when the look-ahead reaches that origin, and its list joins the lock set
unless it is in a command in flight. An entry's registration switch is made on its becoming current or engaged, when the entry before it
has finished sounding; that an entry whose walk is discarded unfinished counts so once no action of it is queued is the model's choice
(note 44; notes 17 and 32 too). That the tempo is applied before the origin is set, so that the beats the re-anchor crosses are those of the old grid, is the
model's reading (note 20). -/
def Obligations.EntriesFollowOneAnother : Prop :=
  ∀ s : State, s.relay.resetting = false →
    (s.follower.play = .gap → s.follower.origin ≤ position s →
      exec .gapOriginReached s = .next (s.withFollower { s.follower with play := .running })) ∧
    (∀ (i j : EntryNo) (e : Pos), s.follower.current = some i → nextIndex s = some j → phraseEnd s = some e →
      (s.follower.play = .running ∨ s.follower.play = .gap → s.clock.state = .moving → e ≤ position s →
        s.follower.stop.map StopPoint.pos ≠ some e →
        s.follower.next.isSome ∨ (planEntry s j).start ≠ .choirLed ∨ s.follower.mode = .steady →
          let o : Pos := match s.follower.next with
            | some g => g.origin
            | none => e + gapOf (planEntry s j)
          let x := position s
          ((planEntry s j).tempo ≠ none → ∀ st, s.follower.stop = some st → x < st.pos) →
            ∃ t, exec .phraseEndReached s = .next t ∧ SameScoreAndTables s t ∧
              t.clock = (match (planEntry s j).tempo with
                | none => s.clock
                | some p => { s.clock with
                    t0 := s.partTime, x0 := x, period := clampPeriod s p, pendingTempo := none
                    highest := max s.clock.highest x, beats := s.clock.beats + BitVec.ofNat 32 (crossings s x) }) ∧
              t.follower.current = some j ∧ t.follower.origin = o ∧ t.follower.next = none ∧
              t.follower.play = (if e < o then .gap else .running) ∧ t.follower.timer = none ∧
              t.follower.finish = (if s.follower.finish = .held then .pending else s.follower.finish) ∧
              t.follower.pointsCurrent = some (s.follower.pointsNext.getD 0) ∧
              t.sched.walkCurrent = some (s.sched.walkNext.getD 0) ∧ t.sched.walkNext = none ∧
              t.follower.lockSet = (if listLocked s (planEntry s j).list = true ∨ involved s (planEntry s j).list = false
                then [(planEntry s j).list] else []) ∧
              (∀ k, (planEntry s j).registration = some k → switchMade s j = false → NoActionsOf s i → SwitchedTo s t j k) ∧
              (s.handler.alerts.length < 15 →
                .phrase j (planEntry s j).start .organ s.partTime ∈ t.handler.alerts)) ∧
      (s.follower.play = .running ∨ s.follower.play = .gap ∨ s.follower.play = .holding → s.follower.next = none →
        (planEntry s j).start ≠ .choirLed ∨ s.follower.mode = .steady →
        e ∉ holdsOf s i s.follower.origin ∨ s.follower.mode = .steady ∨ gapOf (planEntry s j) = 0 →
        e + gapOf (planEntry s j) ≤ position s + 49152 →
          ∃ t, exec .nextEntryEngage s = .next t ∧ SameScoreAndTables s t ∧ t.clock = s.clock ∧
            t.follower = { s.follower with
              next := some { start := if (planEntry s j).start = .choirLed then .organLed else (planEntry s j).start
                             origin := e + gapOf (planEntry s j) }
              pointsNext := some 0, lockSet := t.follower.lockSet, stop := t.follower.stop } ∧
            t.sched.walkNext = some 0 ∧ t.sched.walkCurrent = s.sched.walkCurrent ∧ t.sched.queues = s.sched.queues ∧
            listLocked t (planEntry s i).list = true ∧
            (involved s (planEntry s j).list = false → listLocked t (planEntry s j).list = true) ∧
            ∀ k, (planEntry s j).registration = some k → switchMade s j = false → NoActionsOf s i →
              walkFinished s i s.sched.walkCurrent = true → SwitchedTo s t j k))

/-- The lead-in timer starts a waiting entry from the wait's position with manner FELL-BACK and counts a miss unless the pickup is STALE;
the hold timer ends a hold inside the phrase, at the end of a phrase begins the next entry, or at the end of the last goes to ENDING; ENDING
passes to IDLE when every queue is empty and every hold count 0, keeping the beat count, which a boundary crossed by the re-anchor of the
stop has raised, and the registration, with an END alert; a pending mode takes effect when every playback key image is empty. The model's
readings and choices: the miss comes after the entry has started (note 14); the two rows change nothing before the silence they wait for
(note 1); a BEAT alert of the end of play stands before the END alert (note 29). -/
def Obligations.TimersAndSilenceMovePlayOn : Prop :=
  ∀ s : State, s.relay.resetting = false →
    (∀ (i : EntryNo) (u : PartTime), s.follower.play = .waiting → s.follower.timer = some u → 0 ≤ tdiff s.partTime u →
      s.clock.state = .held → s.follower.current = some i → s.follower.next = none → s.clock.x0 ≤ s.clock.highest →
      readable s i = true → phraseLength s (planEntry s i).list ≠ 0 → (∀ n, 0 < (stepRec s n).music.duration) →
        ∃ t, exec .leadInExpiry s = .next t ∧ SameScoreAndTables s t ∧ t.follower.play = .running ∧
          t.follower.origin = s.clock.x0 ∧ t.follower.timer = none ∧ t.follower.current = some i ∧
          t.clock = { s.clock with state := .moving, t0 := s.partTime } ∧
          (s.handler.alerts.length < 16 →
            .phrase i (planEntry s i).start .fellBack s.partTime ∈ t.handler.alerts) ∧
          (s.detector.fresh = false → t.follower.counter = s.follower.counter ∧ t.follower.conf = s.follower.conf) ∧
          (s.detector.fresh = true → s.follower.conf ≠ .lost → s.follower.counter ≤ 255 →
            t.follower.counter = min 255 (s.follower.counter + 8))) ∧
    (∀ u, s.follower.play = .holding → s.follower.timer = some u → 0 ≤ tdiff s.partTime u →
      (s.clock.state = .held → (∀ e, phraseEnd s = some e → s.clock.x0 < e) → s.clock.x0 ≤ s.clock.highest →
        ∃ t, exec .holdTimerExpiry s = .next t ∧
          t = (s.withClock { s.clock with state := .moving, t0 := s.partTime }).withFollower { s.follower with
            play := .running, timer := none, released := s.clock.x0 :: s.follower.released, stop := t.follower.stop } ∧
          ∀ st, t.follower.stop = some st → s.clock.x0 < st.pos) ∧
      (∀ e, phraseEnd s = some e → e ≤ s.clock.x0 → nextIndex s = none →
        exec .holdTimerExpiry s = .next (s.withFollower { s.follower with
          play := .ending, timer := none, window := [], checkHeld := false, released := s.clock.x0 :: s.follower.released
          stop := some { pos := s.clock.x0, kind := .end_, reachedAt := some s.partTime } })) ∧
      (∀ e j, phraseEnd s = some e → e ≤ s.clock.x0 → nextIndex s = some j →
        ∃ t, exec .holdTimerExpiry s = .next t ∧ BegunAtHold s t j)) ∧
    (s.follower.play = .ending →
      ((∀ d, queue s d = [] ∧ ∀ k, vget (s.sched.holds.get d) k = 0) → ∃ t, exec .endingToIdle s = .next t ∧
        SameScoreAndTables s t ∧ t.prot = s.prot ∧ t.detector = s.detector ∧ t.follower = resting s.follower ∧
        (let count := s.clock.beats + BitVec.ofNat 32 (stopCrossings s)
         t.clock = { stoppedClock s with beats := count } ∧
           t.handler = ((stopAlerts s ++ [Alert.ended s.follower.current count s.partTime]).foldl postAlert s).handler) ∧
        t.sched = { s.sched with
          walkCurrent := none, walkNext := none, catchUp := PerDiv.fill none, stalled := none, switched := none } ∧
        t.relay.downQueue = s.relay.downQueue) ∧
      ((∃ d, queue s d ≠ [] ∨ ∃ k, vget (s.sched.holds.get d) k ≠ 0) → exec .endingToIdle s = .next s)) ∧
    ∀ m, s.follower.pendingMode = some m →
      (imagesEmpty s = true → ∃ t, exec .pendingModeEffect s = .next t ∧ SameScoreAndTables s t ∧ t.clock = s.clock ∧
        t.sched = s.sched ∧ t.handler = s.handler ∧
        t.follower = { s.follower with mode := m, pendingMode := none, stop := t.follower.stop } ∧
        (merges m ≠ merges s.follower.mode → s.sched.stopImage ≠ 0 → .marker .stops ∈ t.relay.downQueue)) ∧
      (imagesEmpty s = false → exec .pendingModeEffect s = .next s)

/-! ### The scheduler (spec 07) -/

/-- A walk deals with a keyed step within the look-ahead: passed over under override, DROPPED when its release is not ahead of the
position, else a press and a release placed with its effective keys and its sounding NOT-YET, when its queue has two free places. Without
them it waits at the step, and every walk with it, whatever the position comes to, until two places are free, and then deals with it
afresh. A tie takes a key out of the press, and out of the first waiting release at the press position that carries it, exactly when there
is one; the key is held over from that release's step and stays in the new release, and a release emptied so leaves the queue. The model's
readings and choices: which of several such releases gives the key (note 43), the copy of the held-over keys in the new release (note 16),
and that a command whose walk has no step to deal with changes nothing (note 1). -/
def Obligations.WalksDealWithSteps : Prop :=
  (∀ s : State, s.relay.resetting = false →
    let dealt (t : State) (i : EntryNo) (o : Pos) (n : StepNo) : Prop :=
      let d := (stepRec s n).music.division
      let x := o + ((stepRec s n).music.onset : Int) * 256
      let y := releasePos s i o n
      let act (kind : ActKind) (pos : Pos) : Action :=
        { kind := kind, pos := pos, step := n, entry := i, keys := effectiveKeys s i n, heldOver := [], relPos := y
          waitOn := none }
      keyed s i n = true ∧ t.follower = s.follower ∧ t.clock = s.clock ∧ t.detector = s.detector ∧ t.handler = s.handler ∧
        t.sched.holds = s.sched.holds ∧ t.store.chains = s.store.chains ∧ (∀ k, k ≠ n → stepRec t k = stepRec s k) ∧
        (∀ e, e ≠ d → queue t e = queue s e) ∧
        (overridden s d = true → queue t d = queue s d ∧ stepRec t n = stepRec s n) ∧
        (overridden s d = false → y ≤ position s → queue t d = queue s d ∧
          ((stepRec s n).list ≠ 0 → stepRec t n = { stepRec s n with sounding := .dropped })) ∧
        (overridden s d = false → position s < y → (queue s d).length ≤ 46 ∧
          ((stepRec s n).list ≠ 0 → stepRec t n = { stepRec s n with sounding := .notYet }) ∧
          ((stepRec s n).music.tie = false →
            queue t d = insertAction (insertAction (queue s d) (act .press x)) (act .release y)) ∧
          ((stepRec s n).music.tie = true →
            let tied := applyTie (queue s d) x (effectiveKeys s i n)
            queue t d = insertAction (insertAction tied.1 { act .press x with keys := tied.2.1, heldOver := tied.2.2 })
              { act .release y with heldOver := tied.2.2 }))
    let full (n : StepNo) : Prop := 46 < (queue s (stepRec s n).music.division).length
    let comes (c : Bool) (i : EntryNo) (n : StepNo) : Prop := stalledAt s c i n = false ∧ walksWait s = false
    let waits (c : Bool) (i : EntryNo) (o : Pos) (n : StepNo) : Prop := comes c i n ∧ full n ∧
      overridden s (stepRec s n).music.division = false ∧ position s < releasePos s i o n
    let deals (c : Bool) (i : EntryNo) (o : Pos) (n : StepNo) : Prop := (stalledAt s c i n = true ∧ ¬full n) ∨
      (comes c i n ∧ (overridden s (stepRec s n).music.division = true ∨ releasePos s i o n ≤ position s ∨ ¬full n))
    let stall (c : Bool) (i : EntryNo) (n : StepNo) : Stall :=
      { entry := i, step := n, division := (stepRec s n).music.division, catchUp := c }
    (s.sched.stalled = none → walksWait s = false) ∧
    (∀ w, walkReady s w = none → exec (.stepPlace w) s = .next s) ∧
    (∀ d, catchHead s d = none → exec (.catchUpPlace d) s = .next s) ∧
    (∀ w i o at_ n, walkReady s w = some (i, o, at_, n) →
      (stalledAt s false i n = false → o + ((stepRec s n).music.onset : Int) * 256 ≤ position s + 49152) ∧
      (stalledAt s false i n = true ∧ full n → exec (.stepPlace w) s = .next s) ∧
      (stalledAt s false i n = false → walksWait s = true → exec (.stepPlace w) s = .next s) ∧
      (waits false i o n → ∃ t, exec (.stepPlace w) s = .next t ∧ walksWait t = true ∧
        t = s.withSched { s.sched with stalled := some (stall false i n) }) ∧
      (deals false i o n → ∃ t, exec (.stepPlace w) s = .next t ∧ dealt t i o n ∧ t.sched.stalled = none ∧
        t.sched.catchUp = s.sched.catchUp ∧
        t.sched.walkCurrent = (if w = .current then some (at_ + 1) else s.sched.walkCurrent) ∧
        t.sched.walkNext = (if w = .next then some (at_ + 1) else s.sched.walkNext))) ∧
    ∀ d c i o at_ n, s.sched.catchUp.get d = some c → catchHead s d = some (i, o, at_, n) →
      (stepRec s n).music.division = d ∧ c.liftPos < o + ((stepRec s n).music.onset : Int) * 256 ∧
      (stalledAt s true i n = true ∧ full n → exec (.catchUpPlace d) s = .next s) ∧
      (stalledAt s true i n = false → walksWait s = true → exec (.catchUpPlace d) s = .next s) ∧
      (waits true i o n → ∃ t, exec (.catchUpPlace d) s = .next t ∧ walksWait t = true ∧
        t = s.withSched { s.sched with stalled := some (stall true i n) }) ∧
      (deals true i o n → ∃ t, exec (.catchUpPlace d) s = .next t ∧ dealt t i o n ∧ t.sched.stalled = none ∧
        t.sched.walkCurrent = s.sched.walkCurrent ∧ t.sched.walkNext = s.sched.walkNext ∧
        t.sched.catchUp.get d = some { c with parts := catchPast i at_ c.parts })) ∧
  ∀ (q : List Action) (x : Pos) (keys : List Key), keys.Nodup →
    let tied := applyTie q x keys
    let carries (k : Key) (b : Action) : Prop := b.kind = .release ∧ b.pos = x ∧ k ∈ b.keys
    (∀ k ∈ keys, (k ∈ tied.2.1 ↔ ∀ b ∈ q, ¬carries k b) ∧ ((∃ h ∈ tied.2.2, h.key = k) ↔ ∃ b ∈ q, carries k b)) ∧
    (∀ k ∈ tied.2.1, k ∈ keys) ∧
    (∀ h ∈ tied.2.2, h.key ∈ keys ∧
      ∃ r, q.find? (tieSource x h.key) = some r ∧ carries h.key r ∧ h.step = r.step ∧ h.entry = r.entry) ∧
    (∀ k, tied.1.countP (tieSource x k) = q.countP (tieSource x k) - if k ∈ keys then 1 else 0) ∧
    (∀ b ∈ tied.1, ∃ b0 ∈ q, b = { b0 with keys := b.keys, heldOver := b.heldOver } ∧ (∀ k ∈ b.keys, k ∈ b0.keys) ∧
      ∀ k ∈ b0.keys, k ∉ b.keys → k ∈ keys) ∧
    (∀ b ∈ tied.1, b.kind = .release → b.pos = x → b.keys = [] → b ∈ q) ∧
    ∀ b ∈ q, (∀ k ∈ keys, ¬carries k b) → b ∈ tied.1

/-- A press is taken when it is the first issuable action of its queue: due, the clock's time for its position less its lead being past, and
not waiting for the gap. It is dropped when its release is not ahead of the position, with the hold counts as they are, its partner
release going with it but for held-over keys, and its keys returned to later presses that held them over; set waiting while a key went up
less than G ago; otherwise issued: each key's hold count rises by 1, but a key at 15, whose count stays, is taken out of the partner
release, or out of the later press that holds it over; the step becomes SOUNDED, or LATE more than 500 tu after its due time, the frame is
marked due when the image changed, the entry's registration switch is made first if it is still to be made, and in FOLLOW boost-until is
raised by the lead and the largest bleed length of the stops then drawn. The model's choices: a switch record above the entry shows its switch made (note 32), and a key at 15 that a press already
issued holds over is taken out of the partner release only (note 39). -/
def Obligations.PressesAreDroppedHeldBackOrIssued : Prop :=
  (∀ (s : State) (d : Division) (a : Action), pressFirst s d = some a ↔ a.kind = .press ∧ FirstIssuable s d a) ∧
  ∀ (s : State) (d : Division) (a : Action), s.relay.resetting = false → pressFirst s d = some a →
    let kept (t : State) : Prop := t.follower = s.follower ∧ t.clock = s.clock ∧ t.tables = s.tables ∧ t.prot = s.prot ∧
      t.handler = s.handler ∧ t.store.chains = s.store.chains ∧ t.sched.keyUps = s.sched.keyUps ∧
      (∀ n, n ≠ a.step → stepRec t n = stepRec s n) ∧ ∀ e, e ≠ d → queue t e = queue s e ∧ t.sched.holds.get e = s.sched.holds.get e
    let recent (k : Key) (u : PartTime) : Prop :=
      vget (s.sched.keyUps.get d) k = some u ∧ tdiff s.partTime u < (s.tables.gap : Int)
    a ∈ queue s d ∧ a.kind = .press ∧
    (a.relPos ≤ position s → ∃ t, exec (.pressIssue d) s = .next t ∧ kept t ∧ t.detector = s.detector ∧
      t.sched.holds = s.sched.holds ∧ (queue t d).length < (queue s d).length ∧
      (∀ b ∈ queue s d, b ≠ a → partners a b = false → (∀ k ∈ a.keys, holdsOver k a.step a.entry b = false) → b ∈ queue t d) ∧
      ((∀ b ∈ queue s d, partners a b = true → ∀ k, holdsOver k a.step a.entry b = false) →
        let left (b : Action) : Action := { b with keys := b.keys.filter fun k => b.heldOver.any fun h => decide (h.key = k) }
        (∀ b ∈ queue s d, partners a b = true → (left b).keys ≠ [] → left b ∈ queue t d) ∧
        ∀ b ∈ queue t d, partners a b = true → b.keys ≠ [] ∧ ∃ b0 ∈ queue s d, b = left b0) ∧
      (∀ b ∈ queue s d, ∀ k ∈ a.keys, b ≠ a → b.kind = .press → holdsOver k a.step a.entry b = true →
        ∃ b' ∈ queue t d, b'.kind = .press ∧ b'.step = b.step ∧ b'.entry = b.entry ∧ b'.pos = b.pos ∧ k ∈ b'.keys ∧
          ∀ h ∈ b'.heldOver, h.key ≠ k) ∧
      ((stepRec s a.step).list ≠ 0 → stepRec t a.step = { stepRec s a.step with sounding := .dropped })) ∧
    (position s < a.relPos → (∃ k ∈ a.keys, ∃ u, recent k u) → ∃ t u, exec (.pressIssue d) s = .next t ∧ kept t ∧
      t.store = s.store ∧ t.detector = s.detector ∧ t.sched.holds = s.sched.holds ∧ (∃ k ∈ a.keys, recent k u) ∧
      queue t d = (queue s d).replace a { a with waitOn := some u }) ∧
    (position s < a.relPos → (∀ k ∈ a.keys, ∀ u, ¬recent k u) → a.keys.Nodup →
        ∃ (u t : State) (lead : Int) (bleed : Nat), exec (.pressIssue d) s = .next t ∧ t = waitingSwitches u ∧ kept t ∧
          u.prot = s.prot ∧ u.tables = s.tables ∧ u.follower = s.follower ∧ LeadIs s d a.entry lead ∧
          LargestOf s d u.sched.stopImage StopEntry.bleed bleed ∧
          ((∀ k ∈ a.keys, vget (s.sched.holds.get d) k < 15) → queue t d = (queue s d).erase a) ∧
          (∀ k, vget (t.sched.holds.get d) k =
            vget (s.sched.holds.get d) k + if k ∈ a.keys ∧ vget (s.sched.holds.get d) k < 15 then 1 else 0) ∧
          (∀ k ∈ a.keys, 15 ≤ vget (s.sched.holds.get d) k →
            (∀ b ∈ queue t d, b.kind = .press → holdsOver k a.step a.entry b = false) ∧
            ((∀ b ∈ (queue s d).erase a, b.kind = .press → holdsOver k a.step a.entry b = false) →
              ∀ b ∈ queue t d, partners a b = true → k ∉ b.keys)) ∧
          (playImage t d ≠ playImage s d → .marker (.keys d) ∈ t.relay.downQueue) ∧
          ((stepRec s a.step).list ≠ 0 → stepRec t a.step = { stepRec s a.step with
            sounding := if lead - timeTo s a.pos ≤ 500 then .sounded else .late }) ∧
          (∀ k, a.entry.val ≠ 0 → switchMade s a.entry = false → (planEntry s a.entry).registration = some k →
            u.sched.active = some k ∧ u.sched.switched = some a.entry ∧
              u.sched.stopImage = lessWithdrawn s (vget s.tables.sets k)) ∧
          (a.entry.val = 0 ∨ switchMade s a.entry = true ∨ (planEntry s a.entry).registration = none →
            u.sched.active = s.sched.active ∧ u.sched.switched = s.sched.switched ∧
              u.sched.stopImage = s.sched.stopImage) ∧
          (s.follower.mode ≠ .follow → t.detector = s.detector) ∧
          (s.follower.mode = .follow → ∃ b, t.detector = { s.detector with boostUntil := some b } ∧
            let candidate := after s.partTime (lead + (bleed : Int))
            (s.detector.boostUntil = none → b = candidate) ∧
            ∀ old, s.detector.boostUntil = some old → b = if tdiff old candidate < 0 then candidate else old))

/-- A release is taken when it is the first issuable action of its queue: due, by the clock's time for its position less the chamber delay
or by the gap ahead of a press that follows it, and neither its partner press nor one it holds a key over from still queued. It lowers the
hold count of each of its keys by 1, stamps the last key-up time of a key that reaches 0, marks the key frame due when the image changed,
leaves its queue and writes no result. When by it an entry has finished sounding, the registration switch of the entry after it is made,
where that is current and not cancelled by a FINISH, or engaged; else none is. The model's choices: which release is issuable at a standing HOLD or WAIT stop point (note 30), that an entry no longer current
has finished once no action of it is queued (note 44), and what its finished walk and the switch record show (notes 17, 31 and 32). -/
def Obligations.ReleasesLowerTheHoldCounts : Prop :=
  (∀ (s : State) (d : Division) (a : Action), releaseFirst s d = some a ↔ a.kind = .release ∧ FirstIssuable s d a) ∧
  ∀ (s : State) (d : Division) (a : Action), s.relay.resetting = false → releaseFirst s d = some a → a.keys.Nodup →
    a ∈ queue s d ∧ a.kind = .release ∧ releaseHeld (queue s d) a = false ∧
    ∃ t, exec (.releaseIssue d) s = .next t ∧ t.store = s.store ∧ t.follower = s.follower ∧ t.clock = s.clock ∧
      t.detector = s.detector ∧ t.tables = s.tables ∧ t.prot = s.prot ∧ t.handler = s.handler ∧
      queue t d = (queue s d).erase a ∧
      (∀ e, e ≠ d → queue t e = queue s e ∧ t.sched.holds.get e = s.sched.holds.get e ∧
        t.sched.keyUps.get e = s.sched.keyUps.get e) ∧
      (∀ k, vget (t.sched.holds.get d) k = vget (s.sched.holds.get d) k - if k ∈ a.keys then 1 else 0) ∧
      (∀ k, vget (t.sched.keyUps.get d) k =
        if k ∈ a.keys ∧ vget (s.sched.holds.get d) k = 1 then some s.partTime else vget (s.sched.keyUps.get d) k) ∧
      (playImage t d ≠ playImage s d → .marker (.keys d) ∈ t.relay.downQueue) ∧
      (t.sched.switched = s.sched.switched → t.sched.active = s.sched.active ∧ t.sched.stopImage = s.sched.stopImage) ∧
      (∀ i, s.follower.current = some i → s.follower.next = none →
        cancelled s = true ∨ (∀ j : EntryNo, i.val = j.val + 1 → ¬NoActionsOf t j) → t.sched.switched = s.sched.switched) ∧
      ∀ (i j : EntryNo) (k : SetNo), i.val = j.val + 1 → (planEntry s i).registration = some k → switchMade s i = false →
        NoActionsOf t j →
          (s.follower.current = some i → s.follower.next = none → cancelled s = false → SwitchedTo s t i k) ∧
          (s.follower.current = some j → s.follower.next ≠ none → walkFinished s j s.sched.walkCurrent = true →
            SwitchedTo s t i k)

/-! ### What every step keeps -/

/-- Every step keeps the request buffer, the alert queue, the forward queue and the downstream queue within their sizes, each marker in
the downstream queue at most once; and it keeps both transmit lanes free, and downstream receive from its beginning, while bypass is
asserted, as it is throughout a full reset. -/
def Obligations.EveryStepKeepsQueuesFit : Prop :=
  ∀ s t : State, step s = .next t → (QueuesFit s → QueuesFit t) ∧ (LinesShut s → LinesShut t)

/-- Every step keeps each issue queue within 48 actions and in the order of R129, and every hold count within 15. -/
def Obligations.EveryStepKeepsIssueQueuesOrdered : Prop :=
  ∀ s t : State, IssueQueuesOrdered s ∧ HoldsBounded s → step s = .next t → IssueQueuesOrdered t ∧ HoldsBounded t

/-- Every step keeps a division under override silent in playback, and the playback stop image that of the active set less the withdrawn
stops. -/
def Obligations.EveryStepKeepsOverridesSilent : Prop :=
  ∀ s t : State, OverrideSilent s ∧ StopsFormed s → step s = .next t → OverrideSilent t ∧ StopsFormed t

/-- Every step keeps confidence counter, state and run in agreement, play IDLE in OFF, the clock STOPPED exactly in IDLE and HELD at the
stop point in WAITING, HOLDING and ENDING, a follower in IDLE without entry, stop point, point and lock, a current entry in every other
play state, at most 8 points in position order, and no check for an expected point owed outside WAITING. -/
def Obligations.EveryStepKeepsPlayAndClockTogether : Prop :=
  let inv (s : State) : Prop := ConfidenceSound s ∧ ModeSound s ∧ ClockMatchesPlay s ∧ IdleHoldsNothing s ∧
    PlayHasCurrent s ∧ WindowOrdered s ∧ ChecksOnlyInWaiting s
  ∀ s t : State, inv s → step s = .next t → inv t

/-- Every step keeps every table, the follow and the pickup profile and every phrase length within their ranges, and the period within
[Pmin, Pmax]. -/
def Obligations.EveryStepKeepsTablesInRange : Prop :=
  ∀ s t : State, TablesInRange s ∧ PeriodInRange s ∧ LengthsInRange s → step s = .next t →
    TablesInRange t ∧ PeriodInRange t ∧ LengthsInRange t

/-- Every step keeps each step of the pool in one list, once, every phrase list in onset order, and the lists of the lock set out of the
command in flight. -/
def Obligations.EveryStepKeepsTheStoreWhole : Prop :=
  ∀ s t : State, StoreWhole s ∧ LocksClear s → step s = .next t → StoreWhole t ∧ LocksClear t

/-- The state after a full reset meets every invariant that a step keeps. -/
def Obligations.ResetMeetsEveryInvariant : Prop :=
  let r := State.reset
  QueuesFit r ∧ LinesShut r ∧ IssueQueuesOrdered r ∧ HoldsBounded r ∧ OverrideSilent r ∧ StopsFormed r ∧ ConfidenceSound r ∧ ModeSound r ∧
    ClockMatchesPlay r ∧ IdleHoldsNothing r ∧ PlayHasCurrent r ∧ WindowOrdered r ∧ ChecksOnlyInWaiting r ∧ TablesInRange r ∧
    PeriodInRange r ∧ LengthsInRange r ∧ StoreWhole r ∧ LocksClear r
end

