-- ==== Sys2Proof/Laws/State.lean ====
section
/-! SUPPORT. One lemma for each field of State under each replacement of a block, and for the per-division values. -/

namespace Sys2Proof

@[simp] theorem PerDiv.get_set_same {α : Type} (v : PerDiv α) (d : Division) (a : α) : (v.set d a).get d = a := by
  cases d <;> rfl

theorem PerDiv.get_set {α : Type} (v : PerDiv α) (d e : Division) (a : α) :
    (v.set d a).get e = if e = d then a else v.get e := by
  cases e <;> cases d <;> rfl

@[simp] theorem PerDiv.get_fill {α : Type} (a : α) (d : Division) : (PerDiv.fill a).get d = a := by
  cases d <;> rfl

namespace Machine

@[simp] theorem State.withPartTime_partTime (s : State) (a : PartTime) : (s.withPartTime a).partTime = a := rfl
@[simp] theorem State.withPartTime_pins (s : State) (a : PartTime) : (s.withPartTime a).pins = s.pins := rfl
@[simp] theorem State.withPartTime_relay (s : State) (a : PartTime) : (s.withPartTime a).relay = s.relay := rfl
@[simp] theorem State.withPartTime_handler (s : State) (a : PartTime) : (s.withPartTime a).handler = s.handler := rfl
@[simp] theorem State.withPartTime_store (s : State) (a : PartTime) : (s.withPartTime a).store = s.store := rfl
@[simp] theorem State.withPartTime_ctl (s : State) (a : PartTime) : (s.withPartTime a).ctl = s.ctl := rfl
@[simp] theorem State.withPartTime_tables (s : State) (a : PartTime) : (s.withPartTime a).tables = s.tables := rfl
@[simp] theorem State.withPartTime_detector (s : State) (a : PartTime) : (s.withPartTime a).detector = s.detector := rfl
@[simp] theorem State.withPartTime_clock (s : State) (a : PartTime) : (s.withPartTime a).clock = s.clock := rfl
@[simp] theorem State.withPartTime_follower (s : State) (a : PartTime) : (s.withPartTime a).follower = s.follower := rfl
@[simp] theorem State.withPartTime_sched (s : State) (a : PartTime) : (s.withPartTime a).sched = s.sched := rfl
@[simp] theorem State.withPartTime_prot (s : State) (a : PartTime) : (s.withPartTime a).prot = s.prot := rfl
@[simp] theorem State.withPartTime_pending (s : State) (a : PartTime) : (s.withPartTime a).pending = s.pending := rfl
@[simp] theorem State.withPartTime_freeCount (s : State) (a : PartTime) : (s.withPartTime a).freeCount = s.freeCount := rfl
@[simp] theorem State.withPartTime_same (s : State) : s.withPartTime s.partTime = s := rfl
@[simp] theorem State.withPartTime_withPartTime (s : State) (a b : PartTime) : (s.withPartTime a).withPartTime b = s.withPartTime b := rfl

@[simp] theorem State.withPins_partTime (s : State) (a : Pins) : (s.withPins a).partTime = s.partTime := rfl
@[simp] theorem State.withPins_pins (s : State) (a : Pins) : (s.withPins a).pins = a := rfl
@[simp] theorem State.withPins_relay (s : State) (a : Pins) : (s.withPins a).relay = s.relay := rfl
@[simp] theorem State.withPins_handler (s : State) (a : Pins) : (s.withPins a).handler = s.handler := rfl
@[simp] theorem State.withPins_store (s : State) (a : Pins) : (s.withPins a).store = s.store := rfl
@[simp] theorem State.withPins_ctl (s : State) (a : Pins) : (s.withPins a).ctl = s.ctl := rfl
@[simp] theorem State.withPins_tables (s : State) (a : Pins) : (s.withPins a).tables = s.tables := rfl
@[simp] theorem State.withPins_detector (s : State) (a : Pins) : (s.withPins a).detector = s.detector := rfl
@[simp] theorem State.withPins_clock (s : State) (a : Pins) : (s.withPins a).clock = s.clock := rfl
@[simp] theorem State.withPins_follower (s : State) (a : Pins) : (s.withPins a).follower = s.follower := rfl
@[simp] theorem State.withPins_sched (s : State) (a : Pins) : (s.withPins a).sched = s.sched := rfl
@[simp] theorem State.withPins_prot (s : State) (a : Pins) : (s.withPins a).prot = s.prot := rfl
@[simp] theorem State.withPins_pending (s : State) (a : Pins) : (s.withPins a).pending = s.pending := rfl
@[simp] theorem State.withPins_freeCount (s : State) (a : Pins) : (s.withPins a).freeCount = s.freeCount := rfl
@[simp] theorem State.withPins_same (s : State) : s.withPins s.pins = s := rfl
@[simp] theorem State.withPins_withPins (s : State) (a b : Pins) : (s.withPins a).withPins b = s.withPins b := rfl

@[simp] theorem State.withRelay_partTime (s : State) (a : Relay) : (s.withRelay a).partTime = s.partTime := rfl
@[simp] theorem State.withRelay_pins (s : State) (a : Relay) : (s.withRelay a).pins = s.pins := rfl
@[simp] theorem State.withRelay_relay (s : State) (a : Relay) : (s.withRelay a).relay = a := rfl
@[simp] theorem State.withRelay_handler (s : State) (a : Relay) : (s.withRelay a).handler = s.handler := rfl
@[simp] theorem State.withRelay_store (s : State) (a : Relay) : (s.withRelay a).store = s.store := rfl
@[simp] theorem State.withRelay_ctl (s : State) (a : Relay) : (s.withRelay a).ctl = s.ctl := rfl
@[simp] theorem State.withRelay_tables (s : State) (a : Relay) : (s.withRelay a).tables = s.tables := rfl
@[simp] theorem State.withRelay_detector (s : State) (a : Relay) : (s.withRelay a).detector = s.detector := rfl
@[simp] theorem State.withRelay_clock (s : State) (a : Relay) : (s.withRelay a).clock = s.clock := rfl
@[simp] theorem State.withRelay_follower (s : State) (a : Relay) : (s.withRelay a).follower = s.follower := rfl
@[simp] theorem State.withRelay_sched (s : State) (a : Relay) : (s.withRelay a).sched = s.sched := rfl
@[simp] theorem State.withRelay_prot (s : State) (a : Relay) : (s.withRelay a).prot = s.prot := rfl
@[simp] theorem State.withRelay_pending (s : State) (a : Relay) : (s.withRelay a).pending = s.pending := rfl
@[simp] theorem State.withRelay_freeCount (s : State) (a : Relay) : (s.withRelay a).freeCount = s.freeCount := rfl
@[simp] theorem State.withRelay_same (s : State) : s.withRelay s.relay = s := rfl
@[simp] theorem State.withRelay_withRelay (s : State) (a b : Relay) : (s.withRelay a).withRelay b = s.withRelay b := rfl

@[simp] theorem State.withHandler_partTime (s : State) (a : Handler) : (s.withHandler a).partTime = s.partTime := rfl
@[simp] theorem State.withHandler_pins (s : State) (a : Handler) : (s.withHandler a).pins = s.pins := rfl
@[simp] theorem State.withHandler_relay (s : State) (a : Handler) : (s.withHandler a).relay = s.relay := rfl
@[simp] theorem State.withHandler_handler (s : State) (a : Handler) : (s.withHandler a).handler = a := rfl
@[simp] theorem State.withHandler_store (s : State) (a : Handler) : (s.withHandler a).store = s.store := rfl
@[simp] theorem State.withHandler_ctl (s : State) (a : Handler) : (s.withHandler a).ctl = s.ctl := rfl
@[simp] theorem State.withHandler_tables (s : State) (a : Handler) : (s.withHandler a).tables = s.tables := rfl
@[simp] theorem State.withHandler_detector (s : State) (a : Handler) : (s.withHandler a).detector = s.detector := rfl
@[simp] theorem State.withHandler_clock (s : State) (a : Handler) : (s.withHandler a).clock = s.clock := rfl
@[simp] theorem State.withHandler_follower (s : State) (a : Handler) : (s.withHandler a).follower = s.follower := rfl
@[simp] theorem State.withHandler_sched (s : State) (a : Handler) : (s.withHandler a).sched = s.sched := rfl
@[simp] theorem State.withHandler_prot (s : State) (a : Handler) : (s.withHandler a).prot = s.prot := rfl
@[simp] theorem State.withHandler_pending (s : State) (a : Handler) : (s.withHandler a).pending = s.pending := rfl
@[simp] theorem State.withHandler_freeCount (s : State) (a : Handler) : (s.withHandler a).freeCount = s.freeCount := rfl
@[simp] theorem State.withHandler_same (s : State) : s.withHandler s.handler = s := rfl
@[simp] theorem State.withHandler_withHandler (s : State) (a b : Handler) : (s.withHandler a).withHandler b = s.withHandler b := rfl

@[simp] theorem State.withStore_partTime (s : State) (a : Store) : (s.withStore a).partTime = s.partTime := rfl
@[simp] theorem State.withStore_pins (s : State) (a : Store) : (s.withStore a).pins = s.pins := rfl
@[simp] theorem State.withStore_relay (s : State) (a : Store) : (s.withStore a).relay = s.relay := rfl
@[simp] theorem State.withStore_handler (s : State) (a : Store) : (s.withStore a).handler = s.handler := rfl
@[simp] theorem State.withStore_store (s : State) (a : Store) : (s.withStore a).store = a := rfl
@[simp] theorem State.withStore_ctl (s : State) (a : Store) : (s.withStore a).ctl = s.ctl := rfl
@[simp] theorem State.withStore_tables (s : State) (a : Store) : (s.withStore a).tables = s.tables := rfl
@[simp] theorem State.withStore_detector (s : State) (a : Store) : (s.withStore a).detector = s.detector := rfl
@[simp] theorem State.withStore_clock (s : State) (a : Store) : (s.withStore a).clock = s.clock := rfl
@[simp] theorem State.withStore_follower (s : State) (a : Store) : (s.withStore a).follower = s.follower := rfl
@[simp] theorem State.withStore_sched (s : State) (a : Store) : (s.withStore a).sched = s.sched := rfl
@[simp] theorem State.withStore_prot (s : State) (a : Store) : (s.withStore a).prot = s.prot := rfl
@[simp] theorem State.withStore_pending (s : State) (a : Store) : (s.withStore a).pending = s.pending := rfl
@[simp] theorem State.withStore_freeCount (s : State) (a : Store) : (s.withStore a).freeCount = s.freeCount := rfl
@[simp] theorem State.withStore_same (s : State) : s.withStore s.store = s := rfl
@[simp] theorem State.withStore_withStore (s : State) (a b : Store) : (s.withStore a).withStore b = s.withStore b := rfl

@[simp] theorem State.withCtl_partTime (s : State) (a : Controller) : (s.withCtl a).partTime = s.partTime := rfl
@[simp] theorem State.withCtl_pins (s : State) (a : Controller) : (s.withCtl a).pins = s.pins := rfl
@[simp] theorem State.withCtl_relay (s : State) (a : Controller) : (s.withCtl a).relay = s.relay := rfl
@[simp] theorem State.withCtl_handler (s : State) (a : Controller) : (s.withCtl a).handler = s.handler := rfl
@[simp] theorem State.withCtl_store (s : State) (a : Controller) : (s.withCtl a).store = s.store := rfl
@[simp] theorem State.withCtl_ctl (s : State) (a : Controller) : (s.withCtl a).ctl = a := rfl
@[simp] theorem State.withCtl_tables (s : State) (a : Controller) : (s.withCtl a).tables = s.tables := rfl
@[simp] theorem State.withCtl_detector (s : State) (a : Controller) : (s.withCtl a).detector = s.detector := rfl
@[simp] theorem State.withCtl_clock (s : State) (a : Controller) : (s.withCtl a).clock = s.clock := rfl
@[simp] theorem State.withCtl_follower (s : State) (a : Controller) : (s.withCtl a).follower = s.follower := rfl
@[simp] theorem State.withCtl_sched (s : State) (a : Controller) : (s.withCtl a).sched = s.sched := rfl
@[simp] theorem State.withCtl_prot (s : State) (a : Controller) : (s.withCtl a).prot = s.prot := rfl
@[simp] theorem State.withCtl_pending (s : State) (a : Controller) : (s.withCtl a).pending = s.pending := rfl
@[simp] theorem State.withCtl_freeCount (s : State) (a : Controller) : (s.withCtl a).freeCount = s.freeCount := rfl
@[simp] theorem State.withCtl_same (s : State) : s.withCtl s.ctl = s := rfl
@[simp] theorem State.withCtl_withCtl (s : State) (a b : Controller) : (s.withCtl a).withCtl b = s.withCtl b := rfl

@[simp] theorem State.withTables_partTime (s : State) (a : Tables) : (s.withTables a).partTime = s.partTime := rfl
@[simp] theorem State.withTables_pins (s : State) (a : Tables) : (s.withTables a).pins = s.pins := rfl
@[simp] theorem State.withTables_relay (s : State) (a : Tables) : (s.withTables a).relay = s.relay := rfl
@[simp] theorem State.withTables_handler (s : State) (a : Tables) : (s.withTables a).handler = s.handler := rfl
@[simp] theorem State.withTables_store (s : State) (a : Tables) : (s.withTables a).store = s.store := rfl
@[simp] theorem State.withTables_ctl (s : State) (a : Tables) : (s.withTables a).ctl = s.ctl := rfl
@[simp] theorem State.withTables_tables (s : State) (a : Tables) : (s.withTables a).tables = a := rfl
@[simp] theorem State.withTables_detector (s : State) (a : Tables) : (s.withTables a).detector = s.detector := rfl
@[simp] theorem State.withTables_clock (s : State) (a : Tables) : (s.withTables a).clock = s.clock := rfl
@[simp] theorem State.withTables_follower (s : State) (a : Tables) : (s.withTables a).follower = s.follower := rfl
@[simp] theorem State.withTables_sched (s : State) (a : Tables) : (s.withTables a).sched = s.sched := rfl
@[simp] theorem State.withTables_prot (s : State) (a : Tables) : (s.withTables a).prot = s.prot := rfl
@[simp] theorem State.withTables_pending (s : State) (a : Tables) : (s.withTables a).pending = s.pending := rfl
@[simp] theorem State.withTables_freeCount (s : State) (a : Tables) : (s.withTables a).freeCount = s.freeCount := rfl
@[simp] theorem State.withTables_same (s : State) : s.withTables s.tables = s := rfl
@[simp] theorem State.withTables_withTables (s : State) (a b : Tables) : (s.withTables a).withTables b = s.withTables b := rfl

@[simp] theorem State.withDetector_partTime (s : State) (a : Detector) : (s.withDetector a).partTime = s.partTime := rfl
@[simp] theorem State.withDetector_pins (s : State) (a : Detector) : (s.withDetector a).pins = s.pins := rfl
@[simp] theorem State.withDetector_relay (s : State) (a : Detector) : (s.withDetector a).relay = s.relay := rfl
@[simp] theorem State.withDetector_handler (s : State) (a : Detector) : (s.withDetector a).handler = s.handler := rfl
@[simp] theorem State.withDetector_store (s : State) (a : Detector) : (s.withDetector a).store = s.store := rfl
@[simp] theorem State.withDetector_ctl (s : State) (a : Detector) : (s.withDetector a).ctl = s.ctl := rfl
@[simp] theorem State.withDetector_tables (s : State) (a : Detector) : (s.withDetector a).tables = s.tables := rfl
@[simp] theorem State.withDetector_detector (s : State) (a : Detector) : (s.withDetector a).detector = a := rfl
@[simp] theorem State.withDetector_clock (s : State) (a : Detector) : (s.withDetector a).clock = s.clock := rfl
@[simp] theorem State.withDetector_follower (s : State) (a : Detector) : (s.withDetector a).follower = s.follower := rfl
@[simp] theorem State.withDetector_sched (s : State) (a : Detector) : (s.withDetector a).sched = s.sched := rfl
@[simp] theorem State.withDetector_prot (s : State) (a : Detector) : (s.withDetector a).prot = s.prot := rfl
@[simp] theorem State.withDetector_pending (s : State) (a : Detector) : (s.withDetector a).pending = s.pending := rfl
@[simp] theorem State.withDetector_freeCount (s : State) (a : Detector) : (s.withDetector a).freeCount = s.freeCount := rfl
@[simp] theorem State.withDetector_same (s : State) : s.withDetector s.detector = s := rfl
@[simp] theorem State.withDetector_withDetector (s : State) (a b : Detector) : (s.withDetector a).withDetector b = s.withDetector b := rfl

@[simp] theorem State.withClock_partTime (s : State) (a : Clock) : (s.withClock a).partTime = s.partTime := rfl
@[simp] theorem State.withClock_pins (s : State) (a : Clock) : (s.withClock a).pins = s.pins := rfl
@[simp] theorem State.withClock_relay (s : State) (a : Clock) : (s.withClock a).relay = s.relay := rfl
@[simp] theorem State.withClock_handler (s : State) (a : Clock) : (s.withClock a).handler = s.handler := rfl
@[simp] theorem State.withClock_store (s : State) (a : Clock) : (s.withClock a).store = s.store := rfl
@[simp] theorem State.withClock_ctl (s : State) (a : Clock) : (s.withClock a).ctl = s.ctl := rfl
@[simp] theorem State.withClock_tables (s : State) (a : Clock) : (s.withClock a).tables = s.tables := rfl
@[simp] theorem State.withClock_detector (s : State) (a : Clock) : (s.withClock a).detector = s.detector := rfl
@[simp] theorem State.withClock_clock (s : State) (a : Clock) : (s.withClock a).clock = a := rfl
@[simp] theorem State.withClock_follower (s : State) (a : Clock) : (s.withClock a).follower = s.follower := rfl
@[simp] theorem State.withClock_sched (s : State) (a : Clock) : (s.withClock a).sched = s.sched := rfl
@[simp] theorem State.withClock_prot (s : State) (a : Clock) : (s.withClock a).prot = s.prot := rfl
@[simp] theorem State.withClock_pending (s : State) (a : Clock) : (s.withClock a).pending = s.pending := rfl
@[simp] theorem State.withClock_freeCount (s : State) (a : Clock) : (s.withClock a).freeCount = s.freeCount := rfl
@[simp] theorem State.withClock_same (s : State) : s.withClock s.clock = s := rfl
@[simp] theorem State.withClock_withClock (s : State) (a b : Clock) : (s.withClock a).withClock b = s.withClock b := rfl

@[simp] theorem State.withFollower_partTime (s : State) (a : Follower) : (s.withFollower a).partTime = s.partTime := rfl
@[simp] theorem State.withFollower_pins (s : State) (a : Follower) : (s.withFollower a).pins = s.pins := rfl
@[simp] theorem State.withFollower_relay (s : State) (a : Follower) : (s.withFollower a).relay = s.relay := rfl
@[simp] theorem State.withFollower_handler (s : State) (a : Follower) : (s.withFollower a).handler = s.handler := rfl
@[simp] theorem State.withFollower_store (s : State) (a : Follower) : (s.withFollower a).store = s.store := rfl
@[simp] theorem State.withFollower_ctl (s : State) (a : Follower) : (s.withFollower a).ctl = s.ctl := rfl
@[simp] theorem State.withFollower_tables (s : State) (a : Follower) : (s.withFollower a).tables = s.tables := rfl
@[simp] theorem State.withFollower_detector (s : State) (a : Follower) : (s.withFollower a).detector = s.detector := rfl
@[simp] theorem State.withFollower_clock (s : State) (a : Follower) : (s.withFollower a).clock = s.clock := rfl
@[simp] theorem State.withFollower_follower (s : State) (a : Follower) : (s.withFollower a).follower = a := rfl
@[simp] theorem State.withFollower_sched (s : State) (a : Follower) : (s.withFollower a).sched = s.sched := rfl
@[simp] theorem State.withFollower_prot (s : State) (a : Follower) : (s.withFollower a).prot = s.prot := rfl
@[simp] theorem State.withFollower_pending (s : State) (a : Follower) : (s.withFollower a).pending = s.pending := rfl
@[simp] theorem State.withFollower_freeCount (s : State) (a : Follower) : (s.withFollower a).freeCount = s.freeCount := rfl
@[simp] theorem State.withFollower_same (s : State) : s.withFollower s.follower = s := rfl
@[simp] theorem State.withFollower_withFollower (s : State) (a b : Follower) : (s.withFollower a).withFollower b = s.withFollower b := rfl

@[simp] theorem State.withSched_partTime (s : State) (a : Sched) : (s.withSched a).partTime = s.partTime := rfl
@[simp] theorem State.withSched_pins (s : State) (a : Sched) : (s.withSched a).pins = s.pins := rfl
@[simp] theorem State.withSched_relay (s : State) (a : Sched) : (s.withSched a).relay = s.relay := rfl
@[simp] theorem State.withSched_handler (s : State) (a : Sched) : (s.withSched a).handler = s.handler := rfl
@[simp] theorem State.withSched_store (s : State) (a : Sched) : (s.withSched a).store = s.store := rfl
@[simp] theorem State.withSched_ctl (s : State) (a : Sched) : (s.withSched a).ctl = s.ctl := rfl
@[simp] theorem State.withSched_tables (s : State) (a : Sched) : (s.withSched a).tables = s.tables := rfl
@[simp] theorem State.withSched_detector (s : State) (a : Sched) : (s.withSched a).detector = s.detector := rfl
@[simp] theorem State.withSched_clock (s : State) (a : Sched) : (s.withSched a).clock = s.clock := rfl
@[simp] theorem State.withSched_follower (s : State) (a : Sched) : (s.withSched a).follower = s.follower := rfl
@[simp] theorem State.withSched_sched (s : State) (a : Sched) : (s.withSched a).sched = a := rfl
@[simp] theorem State.withSched_prot (s : State) (a : Sched) : (s.withSched a).prot = s.prot := rfl
@[simp] theorem State.withSched_pending (s : State) (a : Sched) : (s.withSched a).pending = s.pending := rfl
@[simp] theorem State.withSched_freeCount (s : State) (a : Sched) : (s.withSched a).freeCount = s.freeCount := rfl
@[simp] theorem State.withSched_same (s : State) : s.withSched s.sched = s := rfl
@[simp] theorem State.withSched_withSched (s : State) (a b : Sched) : (s.withSched a).withSched b = s.withSched b := rfl

@[simp] theorem State.withProt_partTime (s : State) (a : Protection) : (s.withProt a).partTime = s.partTime := rfl
@[simp] theorem State.withProt_pins (s : State) (a : Protection) : (s.withProt a).pins = s.pins := rfl
@[simp] theorem State.withProt_relay (s : State) (a : Protection) : (s.withProt a).relay = s.relay := rfl
@[simp] theorem State.withProt_handler (s : State) (a : Protection) : (s.withProt a).handler = s.handler := rfl
@[simp] theorem State.withProt_store (s : State) (a : Protection) : (s.withProt a).store = s.store := rfl
@[simp] theorem State.withProt_ctl (s : State) (a : Protection) : (s.withProt a).ctl = s.ctl := rfl
@[simp] theorem State.withProt_tables (s : State) (a : Protection) : (s.withProt a).tables = s.tables := rfl
@[simp] theorem State.withProt_detector (s : State) (a : Protection) : (s.withProt a).detector = s.detector := rfl
@[simp] theorem State.withProt_clock (s : State) (a : Protection) : (s.withProt a).clock = s.clock := rfl
@[simp] theorem State.withProt_follower (s : State) (a : Protection) : (s.withProt a).follower = s.follower := rfl
@[simp] theorem State.withProt_sched (s : State) (a : Protection) : (s.withProt a).sched = s.sched := rfl
@[simp] theorem State.withProt_prot (s : State) (a : Protection) : (s.withProt a).prot = a := rfl
@[simp] theorem State.withProt_pending (s : State) (a : Protection) : (s.withProt a).pending = s.pending := rfl
@[simp] theorem State.withProt_freeCount (s : State) (a : Protection) : (s.withProt a).freeCount = s.freeCount := rfl
@[simp] theorem State.withProt_same (s : State) : s.withProt s.prot = s := rfl
@[simp] theorem State.withProt_withProt (s : State) (a b : Protection) : (s.withProt a).withProt b = s.withProt b := rfl

@[simp] theorem State.withPending_partTime (s : State) (a : List Instr) : (s.withPending a).partTime = s.partTime := rfl
@[simp] theorem State.withPending_pins (s : State) (a : List Instr) : (s.withPending a).pins = s.pins := rfl
@[simp] theorem State.withPending_relay (s : State) (a : List Instr) : (s.withPending a).relay = s.relay := rfl
@[simp] theorem State.withPending_handler (s : State) (a : List Instr) : (s.withPending a).handler = s.handler := rfl
@[simp] theorem State.withPending_store (s : State) (a : List Instr) : (s.withPending a).store = s.store := rfl
@[simp] theorem State.withPending_ctl (s : State) (a : List Instr) : (s.withPending a).ctl = s.ctl := rfl
@[simp] theorem State.withPending_tables (s : State) (a : List Instr) : (s.withPending a).tables = s.tables := rfl
@[simp] theorem State.withPending_detector (s : State) (a : List Instr) : (s.withPending a).detector = s.detector := rfl
@[simp] theorem State.withPending_clock (s : State) (a : List Instr) : (s.withPending a).clock = s.clock := rfl
@[simp] theorem State.withPending_follower (s : State) (a : List Instr) : (s.withPending a).follower = s.follower := rfl
@[simp] theorem State.withPending_sched (s : State) (a : List Instr) : (s.withPending a).sched = s.sched := rfl
@[simp] theorem State.withPending_prot (s : State) (a : List Instr) : (s.withPending a).prot = s.prot := rfl
@[simp] theorem State.withPending_pending (s : State) (a : List Instr) : (s.withPending a).pending = a := rfl
@[simp] theorem State.withPending_freeCount (s : State) (a : List Instr) : (s.withPending a).freeCount = s.freeCount := rfl
@[simp] theorem State.withPending_same (s : State) : s.withPending s.pending = s := rfl
@[simp] theorem State.withPending_withPending (s : State) (a b : List Instr) : (s.withPending a).withPending b = s.withPending b := rfl

@[simp] theorem State.withFreeCount_partTime (s : State) (a : Nat) : (s.withFreeCount a).partTime = s.partTime := rfl
@[simp] theorem State.withFreeCount_pins (s : State) (a : Nat) : (s.withFreeCount a).pins = s.pins := rfl
@[simp] theorem State.withFreeCount_relay (s : State) (a : Nat) : (s.withFreeCount a).relay = s.relay := rfl
@[simp] theorem State.withFreeCount_handler (s : State) (a : Nat) : (s.withFreeCount a).handler = s.handler := rfl
@[simp] theorem State.withFreeCount_store (s : State) (a : Nat) : (s.withFreeCount a).store = s.store := rfl
@[simp] theorem State.withFreeCount_ctl (s : State) (a : Nat) : (s.withFreeCount a).ctl = s.ctl := rfl
@[simp] theorem State.withFreeCount_tables (s : State) (a : Nat) : (s.withFreeCount a).tables = s.tables := rfl
@[simp] theorem State.withFreeCount_detector (s : State) (a : Nat) : (s.withFreeCount a).detector = s.detector := rfl
@[simp] theorem State.withFreeCount_clock (s : State) (a : Nat) : (s.withFreeCount a).clock = s.clock := rfl
@[simp] theorem State.withFreeCount_follower (s : State) (a : Nat) : (s.withFreeCount a).follower = s.follower := rfl
@[simp] theorem State.withFreeCount_sched (s : State) (a : Nat) : (s.withFreeCount a).sched = s.sched := rfl
@[simp] theorem State.withFreeCount_prot (s : State) (a : Nat) : (s.withFreeCount a).prot = s.prot := rfl
@[simp] theorem State.withFreeCount_pending (s : State) (a : Nat) : (s.withFreeCount a).pending = s.pending := rfl
@[simp] theorem State.withFreeCount_freeCount (s : State) (a : Nat) : (s.withFreeCount a).freeCount = a := rfl
@[simp] theorem State.withFreeCount_same (s : State) : s.withFreeCount s.freeCount = s := rfl
@[simp] theorem State.withFreeCount_withFreeCount (s : State) (a b : Nat) : (s.withFreeCount a).withFreeCount b = s.withFreeCount b := rfl

end Machine

end Sys2Proof
end

