-- ==== Sys2Proof/Laws/Frames.lean ====
section
/-! SUPPORT. For each shared operation, once, the blocks of the state it leaves as they are: tagged for simp, so that a later proof
need not unfold the operation to see that a block it does not touch is unchanged. -/

namespace Sys2Proof

namespace Machine

/-! ### Machine/Ops.lean -/

@[simp] theorem loseAlert_keeps (s : State) :
    (loseAlert s).partTime = s.partTime ∧ (loseAlert s).pins = s.pins ∧ (loseAlert s).store = s.store ∧
      (loseAlert s).ctl = s.ctl ∧ (loseAlert s).tables = s.tables ∧ (loseAlert s).detector = s.detector ∧
      (loseAlert s).clock = s.clock ∧ (loseAlert s).follower = s.follower ∧ (loseAlert s).sched = s.sched ∧
      (loseAlert s).prot = s.prot ∧ (loseAlert s).pending = s.pending ∧ (loseAlert s).freeCount = s.freeCount := by
  simp [loseAlert]

@[simp] theorem postAlert_keeps (s : State) (a : Alert) :
    (postAlert s a).partTime = s.partTime ∧ (postAlert s a).pins = s.pins ∧ (postAlert s a).store = s.store ∧
      (postAlert s a).ctl = s.ctl ∧ (postAlert s a).tables = s.tables ∧ (postAlert s a).detector = s.detector ∧
      (postAlert s a).clock = s.clock ∧ (postAlert s a).follower = s.follower ∧ (postAlert s a).sched = s.sched ∧
      (postAlert s a).prot = s.prot ∧ (postAlert s a).pending = s.pending ∧ (postAlert s a).freeCount = s.freeCount := by
  simp only [postAlert]
  (repeat' split) <;> simp

@[simp] theorem markDue_keeps (s : State) (m : Marker) :
    (markDue s m).partTime = s.partTime ∧ (markDue s m).pins = s.pins ∧ (markDue s m).handler = s.handler ∧
      (markDue s m).store = s.store ∧ (markDue s m).ctl = s.ctl ∧ (markDue s m).tables = s.tables ∧
      (markDue s m).detector = s.detector ∧ (markDue s m).clock = s.clock ∧ (markDue s m).follower = s.follower ∧
      (markDue s m).sched = s.sched ∧ (markDue s m).prot = s.prot ∧ (markDue s m).pending = s.pending ∧
      (markDue s m).freeCount = s.freeCount := by
  simp only [markDue]
  (repeat' split) <;> simp

@[simp] theorem writeStep_keeps (s : State) (n : StepNo) (r : StepRec) :
    (writeStep s n r).partTime = s.partTime ∧ (writeStep s n r).pins = s.pins ∧ (writeStep s n r).relay = s.relay ∧
      (writeStep s n r).handler = s.handler ∧ (writeStep s n r).ctl = s.ctl ∧ (writeStep s n r).tables = s.tables ∧
      (writeStep s n r).detector = s.detector ∧ (writeStep s n r).clock = s.clock ∧
      (writeStep s n r).follower = s.follower ∧ (writeStep s n r).sched = s.sched ∧ (writeStep s n r).prot = s.prot ∧
      (writeStep s n r).pending = s.pending ∧ (writeStep s n r).freeCount = s.freeCount := by
  simp [writeStep]

@[simp] theorem writeResult_keeps (s : State) (n : StepNo) (f : StepRec → StepRec) :
    (writeResult s n f).partTime = s.partTime ∧ (writeResult s n f).pins = s.pins ∧ (writeResult s n f).relay = s.relay ∧
      (writeResult s n f).handler = s.handler ∧ (writeResult s n f).ctl = s.ctl ∧ (writeResult s n f).tables = s.tables ∧
      (writeResult s n f).detector = s.detector ∧ (writeResult s n f).clock = s.clock ∧
      (writeResult s n f).follower = s.follower ∧ (writeResult s n f).sched = s.sched ∧
      (writeResult s n f).prot = s.prot ∧ (writeResult s n f).pending = s.pending ∧
      (writeResult s n f).freeCount = s.freeCount := by
  simp only [writeResult]
  (repeat' split) <;> simp

@[simp] theorem writeSounding_keeps (s : State) (n : StepNo) (v : Sounding) :
    (writeSounding s n v).partTime = s.partTime ∧ (writeSounding s n v).pins = s.pins ∧
      (writeSounding s n v).relay = s.relay ∧ (writeSounding s n v).handler = s.handler ∧
      (writeSounding s n v).ctl = s.ctl ∧ (writeSounding s n v).tables = s.tables ∧
      (writeSounding s n v).detector = s.detector ∧ (writeSounding s n v).clock = s.clock ∧
      (writeSounding s n v).follower = s.follower ∧ (writeSounding s n v).sched = s.sched ∧
      (writeSounding s n v).prot = s.prot ∧ (writeSounding s n v).pending = s.pending ∧
      (writeSounding s n v).freeCount = s.freeCount := by
  simp [writeSounding]

/-! ### Machine/Flags.lean -/

@[simp] theorem reformStops_keeps (s : State) :
    (reformStops s).partTime = s.partTime ∧ (reformStops s).pins = s.pins ∧ (reformStops s).handler = s.handler ∧
      (reformStops s).store = s.store ∧ (reformStops s).ctl = s.ctl ∧ (reformStops s).tables = s.tables ∧
      (reformStops s).detector = s.detector ∧ (reformStops s).clock = s.clock ∧ (reformStops s).follower = s.follower ∧
      (reformStops s).prot = s.prot ∧ (reformStops s).pending = s.pending ∧ (reformStops s).freeCount = s.freeCount := by
  simp only [reformStops]
  (repeat' split) <;> simp

@[simp] theorem setActive_keeps (s : State) (k : Option SetNo) :
    (setActive s k).partTime = s.partTime ∧ (setActive s k).pins = s.pins ∧ (setActive s k).handler = s.handler ∧
      (setActive s k).store = s.store ∧ (setActive s k).ctl = s.ctl ∧ (setActive s k).tables = s.tables ∧
      (setActive s k).detector = s.detector ∧ (setActive s k).clock = s.clock ∧ (setActive s k).follower = s.follower ∧
      (setActive s k).prot = s.prot ∧ (setActive s k).pending = s.pending ∧ (setActive s k).freeCount = s.freeCount := by
  simp [setActive]

/-! ### Machine/Clock.lean -/

@[simp] theorem raiseHighest_keeps (s : State) (x : Pos) (t : PartTime) :
    (raiseHighest s x t).partTime = s.partTime ∧ (raiseHighest s x t).pins = s.pins ∧
      (raiseHighest s x t).store = s.store ∧ (raiseHighest s x t).ctl = s.ctl ∧ (raiseHighest s x t).tables = s.tables ∧
      (raiseHighest s x t).detector = s.detector ∧ (raiseHighest s x t).follower = s.follower ∧
      (raiseHighest s x t).sched = s.sched ∧ (raiseHighest s x t).prot = s.prot ∧
      (raiseHighest s x t).pending = s.pending ∧ (raiseHighest s x t).freeCount = s.freeCount := by
  simp only [raiseHighest]
  (repeat' split) <;> simp

@[simp] theorem applyPendingTempo_keeps (s : State) (x : Pos) :
    (applyPendingTempo s x).partTime = s.partTime ∧ (applyPendingTempo s x).pins = s.pins ∧
      (applyPendingTempo s x).relay = s.relay ∧ (applyPendingTempo s x).handler = s.handler ∧
      (applyPendingTempo s x).store = s.store ∧ (applyPendingTempo s x).ctl = s.ctl ∧
      (applyPendingTempo s x).tables = s.tables ∧ (applyPendingTempo s x).detector = s.detector ∧
      (applyPendingTempo s x).follower = s.follower ∧ (applyPendingTempo s x).sched = s.sched ∧
      (applyPendingTempo s x).prot = s.prot ∧ (applyPendingTempo s x).pending = s.pending ∧
      (applyPendingTempo s x).freeCount = s.freeCount := by
  simp only [applyPendingTempo]
  (repeat' split) <;> simp

@[simp] theorem riseTo_keeps (s : State) (x : Pos) (t : PartTime) (now : Pos) :
    (riseTo s x t now).partTime = s.partTime ∧ (riseTo s x t now).pins = s.pins ∧
      (riseTo s x t now).store = s.store ∧ (riseTo s x t now).ctl = s.ctl ∧ (riseTo s x t now).tables = s.tables ∧
      (riseTo s x t now).detector = s.detector ∧ (riseTo s x t now).follower = s.follower ∧
      (riseTo s x t now).sched = s.sched ∧ (riseTo s x t now).prot = s.prot ∧
      (riseTo s x t now).pending = s.pending ∧ (riseTo s x t now).freeCount = s.freeCount := by
  simp only [riseTo]
  (repeat' split) <;> simp

@[simp] theorem installAnchor_keeps (s : State) (ta : PartTime) (xa : Pos) (p : Nat) :
    (installAnchor s ta xa p).partTime = s.partTime ∧ (installAnchor s ta xa p).pins = s.pins ∧
      (installAnchor s ta xa p).relay = s.relay ∧ (installAnchor s ta xa p).handler = s.handler ∧
      (installAnchor s ta xa p).store = s.store ∧ (installAnchor s ta xa p).ctl = s.ctl ∧
      (installAnchor s ta xa p).tables = s.tables ∧ (installAnchor s ta xa p).detector = s.detector ∧
      (installAnchor s ta xa p).follower = s.follower ∧ (installAnchor s ta xa p).sched = s.sched ∧
      (installAnchor s ta xa p).prot = s.prot ∧ (installAnchor s ta xa p).pending = s.pending ∧
      (installAnchor s ta xa p).freeCount = s.freeCount := by
  simp only [installAnchor]
  (repeat' split) <;> simp

@[simp] theorem reanchor_keeps (s : State) (ta : PartTime) (xa : Pos) (p : Nat) :
    (reanchor s ta xa p).partTime = s.partTime ∧ (reanchor s ta xa p).pins = s.pins ∧
      (reanchor s ta xa p).store = s.store ∧ (reanchor s ta xa p).ctl = s.ctl ∧ (reanchor s ta xa p).tables = s.tables ∧
      (reanchor s ta xa p).detector = s.detector ∧ (reanchor s ta xa p).follower = s.follower ∧
      (reanchor s ta xa p).sched = s.sched ∧ (reanchor s ta xa p).prot = s.prot ∧
      (reanchor s ta xa p).pending = s.pending ∧ (reanchor s ta xa p).freeCount = s.freeCount := by
  simp [reanchor]

@[simp] theorem changePeriod_keeps (s : State) (p : Nat) :
    (changePeriod s p).partTime = s.partTime ∧ (changePeriod s p).pins = s.pins ∧ (changePeriod s p).store = s.store ∧
      (changePeriod s p).ctl = s.ctl ∧ (changePeriod s p).tables = s.tables ∧ (changePeriod s p).detector = s.detector ∧
      (changePeriod s p).follower = s.follower ∧ (changePeriod s p).sched = s.sched ∧ (changePeriod s p).prot = s.prot ∧
      (changePeriod s p).pending = s.pending ∧ (changePeriod s p).freeCount = s.freeCount := by
  simp only [changePeriod]
  (repeat' split) <;> simp

@[simp] theorem riseAtStop_keeps (s : State) :
    (riseAtStop s).partTime = s.partTime ∧ (riseAtStop s).pins = s.pins ∧ (riseAtStop s).store = s.store ∧
      (riseAtStop s).ctl = s.ctl ∧ (riseAtStop s).tables = s.tables ∧ (riseAtStop s).detector = s.detector ∧
      (riseAtStop s).follower = s.follower ∧ (riseAtStop s).sched = s.sched ∧ (riseAtStop s).prot = s.prot ∧
      (riseAtStop s).pending = s.pending ∧ (riseAtStop s).freeCount = s.freeCount := by
  simp only [riseAtStop]
  (repeat' split) <;> simp

@[simp] theorem stopClock_keeps (s : State) (zero : Bool) :
    (stopClock s zero).partTime = s.partTime ∧ (stopClock s zero).pins = s.pins ∧
      (stopClock s zero).store = s.store ∧ (stopClock s zero).ctl = s.ctl ∧
      (stopClock s zero).tables = s.tables ∧ (stopClock s zero).detector = s.detector ∧
      (stopClock s zero).follower = s.follower ∧ (stopClock s zero).sched = s.sched ∧ (stopClock s zero).prot = s.prot ∧
      (stopClock s zero).pending = s.pending ∧ (stopClock s zero).freeCount = s.freeCount := by
  simp [stopClock]

@[simp] theorem correct_keeps (s : State) (tOn : PartTime) (e : Int) (both : Bool) :
    (correct s tOn e both).partTime = s.partTime ∧ (correct s tOn e both).pins = s.pins ∧
      (correct s tOn e both).store = s.store ∧ (correct s tOn e both).ctl = s.ctl ∧
      (correct s tOn e both).tables = s.tables ∧ (correct s tOn e both).detector = s.detector ∧
      (correct s tOn e both).follower = s.follower ∧ (correct s tOn e both).sched = s.sched ∧
      (correct s tOn e both).prot = s.prot ∧ (correct s tOn e both).pending = s.pending ∧
      (correct s tOn e both).freeCount = s.freeCount := by
  simp only [correct]
  (repeat' split) <;> simp

@[simp] theorem crossBoundary_keeps (s : State) :
    (crossBoundary s).partTime = s.partTime ∧ (crossBoundary s).pins = s.pins ∧ (crossBoundary s).store = s.store ∧
      (crossBoundary s).ctl = s.ctl ∧ (crossBoundary s).tables = s.tables ∧ (crossBoundary s).detector = s.detector ∧
      (crossBoundary s).follower = s.follower ∧ (crossBoundary s).sched = s.sched ∧ (crossBoundary s).prot = s.prot ∧
      (crossBoundary s).pending = s.pending ∧ (crossBoundary s).freeCount = s.freeCount := by
  simp only [crossBoundary]
  (repeat' split) <;> simp

@[simp] theorem renewAnchor_keeps (s : State) :
    (renewAnchor s).partTime = s.partTime ∧ (renewAnchor s).pins = s.pins ∧ (renewAnchor s).relay = s.relay ∧
      (renewAnchor s).handler = s.handler ∧ (renewAnchor s).store = s.store ∧ (renewAnchor s).ctl = s.ctl ∧
      (renewAnchor s).tables = s.tables ∧ (renewAnchor s).detector = s.detector ∧ (renewAnchor s).follower = s.follower ∧
      (renewAnchor s).sched = s.sched ∧ (renewAnchor s).prot = s.prot ∧ (renewAnchor s).pending = s.pending ∧
      (renewAnchor s).freeCount = s.freeCount := by
  simp [renewAnchor]

@[simp] theorem holdClock_keeps (s : State) (x : Pos) :
    (holdClock s x).partTime = s.partTime ∧ (holdClock s x).pins = s.pins ∧ (holdClock s x).store = s.store ∧
      (holdClock s x).ctl = s.ctl ∧ (holdClock s x).tables = s.tables ∧ (holdClock s x).detector = s.detector ∧
      (holdClock s x).follower = s.follower ∧ (holdClock s x).sched = s.sched ∧ (holdClock s x).prot = s.prot ∧
      (holdClock s x).pending = s.pending ∧ (holdClock s x).freeCount = s.freeCount := by
  simp [holdClock]

/-! ### Machine/Scheduler.lean -/

@[simp] theorem withQueue_keeps (s : State) (d : Division) (q : List Action) :
    (withQueue s d q).partTime = s.partTime ∧ (withQueue s d q).pins = s.pins ∧ (withQueue s d q).relay = s.relay ∧
      (withQueue s d q).handler = s.handler ∧ (withQueue s d q).store = s.store ∧ (withQueue s d q).ctl = s.ctl ∧
      (withQueue s d q).tables = s.tables ∧ (withQueue s d q).detector = s.detector ∧ (withQueue s d q).clock = s.clock ∧
      (withQueue s d q).follower = s.follower ∧ (withQueue s d q).prot = s.prot ∧ (withQueue s d q).pending = s.pending ∧
      (withQueue s d q).freeCount = s.freeCount := by
  simp [withQueue]

@[simp] theorem placeStep_keeps (s : State) (i : EntryNo) (o : Pos) (n : StepNo) :
    (placeStep s i o n).partTime = s.partTime ∧ (placeStep s i o n).pins = s.pins ∧ (placeStep s i o n).relay = s.relay ∧
      (placeStep s i o n).handler = s.handler ∧ (placeStep s i o n).ctl = s.ctl ∧ (placeStep s i o n).tables = s.tables ∧
      (placeStep s i o n).detector = s.detector ∧ (placeStep s i o n).clock = s.clock ∧
      (placeStep s i o n).follower = s.follower ∧ (placeStep s i o n).prot = s.prot ∧
      (placeStep s i o n).pending = s.pending ∧ (placeStep s i o n).freeCount = s.freeCount := by
  simp [placeStep]

@[simp] theorem withWalk_keeps (s : State) (w : WalkSel) (p : Option Nat) :
    (withWalk s w p).partTime = s.partTime ∧ (withWalk s w p).pins = s.pins ∧ (withWalk s w p).relay = s.relay ∧
      (withWalk s w p).handler = s.handler ∧ (withWalk s w p).store = s.store ∧ (withWalk s w p).ctl = s.ctl ∧
      (withWalk s w p).tables = s.tables ∧ (withWalk s w p).detector = s.detector ∧ (withWalk s w p).clock = s.clock ∧
      (withWalk s w p).follower = s.follower ∧ (withWalk s w p).prot = s.prot ∧ (withWalk s w p).pending = s.pending ∧
      (withWalk s w p).freeCount = s.freeCount := by
  simp only [withWalk]
  (repeat' split) <;> simp

@[simp] theorem withStall_keeps (s : State) (w : Option Stall) :
    (withStall s w).partTime = s.partTime ∧ (withStall s w).pins = s.pins ∧ (withStall s w).relay = s.relay ∧
      (withStall s w).handler = s.handler ∧ (withStall s w).store = s.store ∧ (withStall s w).ctl = s.ctl ∧
      (withStall s w).tables = s.tables ∧ (withStall s w).detector = s.detector ∧ (withStall s w).clock = s.clock ∧
      (withStall s w).follower = s.follower ∧ (withStall s w).prot = s.prot ∧ (withStall s w).pending = s.pending ∧
      (withStall s w).freeCount = s.freeCount := by
  simp [withStall]

@[simp] theorem dealWith_keeps (s : State) (c : Bool) (i : EntryNo) (o : Pos) (n : StepNo) :
    (dealWith s c i o n).partTime = s.partTime ∧ (dealWith s c i o n).pins = s.pins ∧
      (dealWith s c i o n).relay = s.relay ∧ (dealWith s c i o n).handler = s.handler ∧
      (dealWith s c i o n).ctl = s.ctl ∧ (dealWith s c i o n).tables = s.tables ∧
      (dealWith s c i o n).detector = s.detector ∧ (dealWith s c i o n).clock = s.clock ∧
      (dealWith s c i o n).follower = s.follower ∧ (dealWith s c i o n).prot = s.prot ∧
      (dealWith s c i o n).pending = s.pending ∧ (dealWith s c i o n).freeCount = s.freeCount := by
  simp only [dealWith]
  (repeat' split) <;> simp

@[simp] theorem makeSwitch_keeps (s : State) (i : EntryNo) :
    (makeSwitch s i).partTime = s.partTime ∧ (makeSwitch s i).pins = s.pins ∧ (makeSwitch s i).handler = s.handler ∧
      (makeSwitch s i).store = s.store ∧ (makeSwitch s i).ctl = s.ctl ∧ (makeSwitch s i).tables = s.tables ∧
      (makeSwitch s i).detector = s.detector ∧ (makeSwitch s i).clock = s.clock ∧
      (makeSwitch s i).follower = s.follower ∧ (makeSwitch s i).prot = s.prot ∧ (makeSwitch s i).pending = s.pending ∧
      (makeSwitch s i).freeCount = s.freeCount := by
  simp only [makeSwitch]
  (repeat' split) <;> simp

@[simp] theorem switchIfFinished_keeps (s : State) (i : EntryNo) :
    (switchIfFinished s i).partTime = s.partTime ∧ (switchIfFinished s i).pins = s.pins ∧
      (switchIfFinished s i).handler = s.handler ∧ (switchIfFinished s i).store = s.store ∧
      (switchIfFinished s i).ctl = s.ctl ∧ (switchIfFinished s i).tables = s.tables ∧
      (switchIfFinished s i).detector = s.detector ∧ (switchIfFinished s i).clock = s.clock ∧
      (switchIfFinished s i).follower = s.follower ∧ (switchIfFinished s i).prot = s.prot ∧
      (switchIfFinished s i).pending = s.pending ∧ (switchIfFinished s i).freeCount = s.freeCount := by
  simp only [switchIfFinished]
  (repeat' split) <;> simp

@[simp] theorem waitingSwitches_keeps (s : State) :
    (waitingSwitches s).partTime = s.partTime ∧ (waitingSwitches s).pins = s.pins ∧
      (waitingSwitches s).handler = s.handler ∧ (waitingSwitches s).store = s.store ∧ (waitingSwitches s).ctl = s.ctl ∧
      (waitingSwitches s).tables = s.tables ∧ (waitingSwitches s).detector = s.detector ∧
      (waitingSwitches s).clock = s.clock ∧ (waitingSwitches s).follower = s.follower ∧
      (waitingSwitches s).prot = s.prot ∧ (waitingSwitches s).pending = s.pending ∧
      (waitingSwitches s).freeCount = s.freeCount := by
  simp only [waitingSwitches]
  (repeat' split) <;> simp

@[simp] theorem dropPress_keeps (s : State) (d : Division) (a : Action) :
    (dropPress s d a).partTime = s.partTime ∧ (dropPress s d a).pins = s.pins ∧ (dropPress s d a).relay = s.relay ∧
      (dropPress s d a).handler = s.handler ∧ (dropPress s d a).ctl = s.ctl ∧ (dropPress s d a).tables = s.tables ∧
      (dropPress s d a).detector = s.detector ∧ (dropPress s d a).clock = s.clock ∧
      (dropPress s d a).follower = s.follower ∧ (dropPress s d a).prot = s.prot ∧ (dropPress s d a).pending = s.pending ∧
      (dropPress s d a).freeCount = s.freeCount := by
  simp [dropPress]

@[simp] theorem withHolds_keeps (s : State) (d : Division) (v : Vector Nat 61) :
    (withHolds s d v).partTime = s.partTime ∧ (withHolds s d v).pins = s.pins ∧ (withHolds s d v).relay = s.relay ∧
      (withHolds s d v).handler = s.handler ∧ (withHolds s d v).store = s.store ∧ (withHolds s d v).ctl = s.ctl ∧
      (withHolds s d v).tables = s.tables ∧ (withHolds s d v).detector = s.detector ∧ (withHolds s d v).clock = s.clock ∧
      (withHolds s d v).follower = s.follower ∧ (withHolds s d v).prot = s.prot ∧ (withHolds s d v).pending = s.pending ∧
      (withHolds s d v).freeCount = s.freeCount := by
  simp [withHolds]

@[simp] theorem markIfChanged_keeps (d : Division) (old : BitVec 64) (s : State) :
    (markIfChanged d old s).partTime = s.partTime ∧ (markIfChanged d old s).pins = s.pins ∧
      (markIfChanged d old s).handler = s.handler ∧ (markIfChanged d old s).store = s.store ∧
      (markIfChanged d old s).ctl = s.ctl ∧ (markIfChanged d old s).tables = s.tables ∧
      (markIfChanged d old s).detector = s.detector ∧ (markIfChanged d old s).clock = s.clock ∧
      (markIfChanged d old s).follower = s.follower ∧ (markIfChanged d old s).sched = s.sched ∧
      (markIfChanged d old s).prot = s.prot ∧ (markIfChanged d old s).pending = s.pending ∧
      (markIfChanged d old s).freeCount = s.freeCount := by
  simp only [markIfChanged]
  (repeat' split) <;> simp

@[simp] theorem raiseBoost_keeps (s : State) (d : Division) (i : EntryNo) :
    (raiseBoost s d i).partTime = s.partTime ∧ (raiseBoost s d i).pins = s.pins ∧ (raiseBoost s d i).relay = s.relay ∧
      (raiseBoost s d i).handler = s.handler ∧ (raiseBoost s d i).store = s.store ∧ (raiseBoost s d i).ctl = s.ctl ∧
      (raiseBoost s d i).tables = s.tables ∧ (raiseBoost s d i).clock = s.clock ∧
      (raiseBoost s d i).follower = s.follower ∧ (raiseBoost s d i).sched = s.sched ∧ (raiseBoost s d i).prot = s.prot ∧
      (raiseBoost s d i).pending = s.pending ∧ (raiseBoost s d i).freeCount = s.freeCount := by
  simp [raiseBoost]

@[simp] theorem issuePress_keeps (s : State) (d : Division) (a : Action) :
    (issuePress s d a).partTime = s.partTime ∧ (issuePress s d a).pins = s.pins ∧
      (issuePress s d a).handler = s.handler ∧ (issuePress s d a).ctl = s.ctl ∧ (issuePress s d a).tables = s.tables ∧
      (issuePress s d a).clock = s.clock ∧ (issuePress s d a).follower = s.follower ∧ (issuePress s d a).prot = s.prot ∧
      (issuePress s d a).pending = s.pending ∧ (issuePress s d a).freeCount = s.freeCount := by
  simp only [issuePress]
  (repeat' split) <;> simp

@[simp] theorem examinePress_keeps (s : State) (d : Division) (a : Action) :
    (examinePress s d a).partTime = s.partTime ∧ (examinePress s d a).pins = s.pins ∧
      (examinePress s d a).handler = s.handler ∧ (examinePress s d a).ctl = s.ctl ∧
      (examinePress s d a).tables = s.tables ∧ (examinePress s d a).clock = s.clock ∧
      (examinePress s d a).follower = s.follower ∧ (examinePress s d a).prot = s.prot ∧
      (examinePress s d a).pending = s.pending ∧ (examinePress s d a).freeCount = s.freeCount := by
  simp only [examinePress]
  (repeat' split) <;> simp

@[simp] theorem issueRelease_keeps (s : State) (d : Division) (a : Action) :
    (issueRelease s d a).partTime = s.partTime ∧ (issueRelease s d a).pins = s.pins ∧
      (issueRelease s d a).handler = s.handler ∧ (issueRelease s d a).store = s.store ∧
      (issueRelease s d a).ctl = s.ctl ∧ (issueRelease s d a).tables = s.tables ∧
      (issueRelease s d a).detector = s.detector ∧ (issueRelease s d a).clock = s.clock ∧
      (issueRelease s d a).follower = s.follower ∧ (issueRelease s d a).prot = s.prot ∧
      (issueRelease s d a).pending = s.pending ∧ (issueRelease s d a).freeCount = s.freeCount := by
  simp [issueRelease]

@[simp] theorem purge_keeps (s : State) (d : Division) :
    (purge s d).partTime = s.partTime ∧ (purge s d).pins = s.pins ∧ (purge s d).handler = s.handler ∧
      (purge s d).store = s.store ∧ (purge s d).ctl = s.ctl ∧ (purge s d).tables = s.tables ∧
      (purge s d).detector = s.detector ∧ (purge s d).clock = s.clock ∧ (purge s d).follower = s.follower ∧
      (purge s d).prot = s.prot ∧ (purge s d).pending = s.pending ∧ (purge s d).freeCount = s.freeCount := by
  simp only [purge]
  (repeat' split) <;> simp

@[simp] theorem purgeAll_keeps (s : State) :
    (purgeAll s).partTime = s.partTime ∧ (purgeAll s).pins = s.pins ∧ (purgeAll s).handler = s.handler ∧
      (purgeAll s).store = s.store ∧ (purgeAll s).ctl = s.ctl ∧ (purgeAll s).tables = s.tables ∧
      (purgeAll s).detector = s.detector ∧ (purgeAll s).clock = s.clock ∧ (purgeAll s).follower = s.follower ∧
      (purgeAll s).prot = s.prot ∧ (purgeAll s).pending = s.pending ∧ (purgeAll s).freeCount = s.freeCount := by
  simp [purgeAll, Division.all]

@[simp] theorem discardWalks_keeps (s : State) :
    (discardWalks s).partTime = s.partTime ∧ (discardWalks s).pins = s.pins ∧ (discardWalks s).relay = s.relay ∧
      (discardWalks s).handler = s.handler ∧ (discardWalks s).store = s.store ∧ (discardWalks s).ctl = s.ctl ∧
      (discardWalks s).tables = s.tables ∧ (discardWalks s).detector = s.detector ∧ (discardWalks s).clock = s.clock ∧
      (discardWalks s).follower = s.follower ∧ (discardWalks s).prot = s.prot ∧ (discardWalks s).pending = s.pending ∧
      (discardWalks s).freeCount = s.freeCount := by
  simp [discardWalks]

@[simp] theorem clearRegistration_keeps (s : State) :
    (clearRegistration s).partTime = s.partTime ∧ (clearRegistration s).pins = s.pins ∧
      (clearRegistration s).handler = s.handler ∧ (clearRegistration s).store = s.store ∧
      (clearRegistration s).ctl = s.ctl ∧ (clearRegistration s).tables = s.tables ∧
      (clearRegistration s).detector = s.detector ∧ (clearRegistration s).clock = s.clock ∧
      (clearRegistration s).follower = s.follower ∧ (clearRegistration s).prot = s.prot ∧
      (clearRegistration s).pending = s.pending ∧ (clearRegistration s).freeCount = s.freeCount := by
  simp [clearRegistration]

@[simp] theorem resumeDivision_keeps (s : State) (d : Division) :
    (resumeDivision s d).partTime = s.partTime ∧ (resumeDivision s d).pins = s.pins ∧
      (resumeDivision s d).relay = s.relay ∧ (resumeDivision s d).handler = s.handler ∧
      (resumeDivision s d).store = s.store ∧ (resumeDivision s d).ctl = s.ctl ∧ (resumeDivision s d).tables = s.tables ∧
      (resumeDivision s d).detector = s.detector ∧ (resumeDivision s d).clock = s.clock ∧
      (resumeDivision s d).follower = s.follower ∧ (resumeDivision s d).prot = s.prot ∧
      (resumeDivision s d).pending = s.pending ∧ (resumeDivision s d).freeCount = s.freeCount := by
  simp only [resumeDivision]
  (repeat' split) <;> simp

@[simp] theorem placeFromWalk_keeps (s : State) (w : WalkSel) :
    (placeFromWalk s w).partTime = s.partTime ∧ (placeFromWalk s w).pins = s.pins ∧
      (placeFromWalk s w).handler = s.handler ∧ (placeFromWalk s w).ctl = s.ctl ∧ (placeFromWalk s w).tables = s.tables ∧
      (placeFromWalk s w).detector = s.detector ∧ (placeFromWalk s w).clock = s.clock ∧
      (placeFromWalk s w).follower = s.follower ∧ (placeFromWalk s w).prot = s.prot ∧
      (placeFromWalk s w).pending = s.pending ∧ (placeFromWalk s w).freeCount = s.freeCount := by
  simp only [placeFromWalk]
  (repeat' split) <;> simp

@[simp] theorem placeFromCatchUp_keeps (s : State) (d : Division) :
    (placeFromCatchUp s d).partTime = s.partTime ∧ (placeFromCatchUp s d).pins = s.pins ∧
      (placeFromCatchUp s d).handler = s.handler ∧ (placeFromCatchUp s d).ctl = s.ctl ∧
      (placeFromCatchUp s d).tables = s.tables ∧ (placeFromCatchUp s d).detector = s.detector ∧
      (placeFromCatchUp s d).clock = s.clock ∧ (placeFromCatchUp s d).follower = s.follower ∧
      (placeFromCatchUp s d).prot = s.prot ∧ (placeFromCatchUp s d).pending = s.pending ∧
      (placeFromCatchUp s d).freeCount = s.freeCount := by
  simp only [placeFromCatchUp]
  (repeat' split) <;> simp

@[simp] theorem forgetKeyUp_keeps (s : State) (d : Division) (k : Key) :
    (forgetKeyUp s d k).partTime = s.partTime ∧ (forgetKeyUp s d k).pins = s.pins ∧ (forgetKeyUp s d k).relay = s.relay ∧
      (forgetKeyUp s d k).handler = s.handler ∧ (forgetKeyUp s d k).store = s.store ∧ (forgetKeyUp s d k).ctl = s.ctl ∧
      (forgetKeyUp s d k).tables = s.tables ∧ (forgetKeyUp s d k).detector = s.detector ∧
      (forgetKeyUp s d k).clock = s.clock ∧ (forgetKeyUp s d k).follower = s.follower ∧
      (forgetKeyUp s d k).prot = s.prot ∧ (forgetKeyUp s d k).pending = s.pending ∧
      (forgetKeyUp s d k).freeCount = s.freeCount := by
  simp [forgetKeyUp]

/-! ### Machine/Follower.lean -/

@[simp] theorem withPlay_keeps (s : State) (p : Play) :
    (withPlay s p).partTime = s.partTime ∧ (withPlay s p).pins = s.pins ∧ (withPlay s p).relay = s.relay ∧
      (withPlay s p).handler = s.handler ∧ (withPlay s p).store = s.store ∧ (withPlay s p).ctl = s.ctl ∧
      (withPlay s p).tables = s.tables ∧ (withPlay s p).detector = s.detector ∧ (withPlay s p).clock = s.clock ∧
      (withPlay s p).sched = s.sched ∧ (withPlay s p).prot = s.prot ∧ (withPlay s p).pending = s.pending ∧
      (withPlay s p).freeCount = s.freeCount := by
  simp [withPlay]

@[simp] theorem formStop_keeps (s : State) :
    (formStop s).partTime = s.partTime ∧ (formStop s).pins = s.pins ∧ (formStop s).relay = s.relay ∧
      (formStop s).handler = s.handler ∧ (formStop s).store = s.store ∧ (formStop s).ctl = s.ctl ∧
      (formStop s).tables = s.tables ∧ (formStop s).detector = s.detector ∧ (formStop s).clock = s.clock ∧
      (formStop s).sched = s.sched ∧ (formStop s).prot = s.prot ∧ (formStop s).pending = s.pending ∧
      (formStop s).freeCount = s.freeCount := by
  simp only [formStop]
  (repeat' split) <;> simp

@[simp] theorem formLocks_keeps (s : State) :
    (formLocks s).partTime = s.partTime ∧ (formLocks s).pins = s.pins ∧ (formLocks s).relay = s.relay ∧
      (formLocks s).handler = s.handler ∧ (formLocks s).store = s.store ∧ (formLocks s).ctl = s.ctl ∧
      (formLocks s).tables = s.tables ∧ (formLocks s).detector = s.detector ∧ (formLocks s).clock = s.clock ∧
      (formLocks s).sched = s.sched ∧ (formLocks s).prot = s.prot ∧ (formLocks s).pending = s.pending ∧
      (formLocks s).freeCount = s.freeCount := by
  simp [formLocks]

@[simp] theorem enterHolding_keeps (s : State) (x : Pos) :
    (enterHolding s x).partTime = s.partTime ∧ (enterHolding s x).pins = s.pins ∧ (enterHolding s x).store = s.store ∧
      (enterHolding s x).ctl = s.ctl ∧ (enterHolding s x).tables = s.tables ∧ (enterHolding s x).detector = s.detector ∧
      (enterHolding s x).clock = s.clock ∧ (enterHolding s x).sched = s.sched ∧ (enterHolding s x).prot = s.prot ∧
      (enterHolding s x).pending = s.pending ∧ (enterHolding s x).freeCount = s.freeCount := by
  simp [enterHolding]

@[simp] theorem enterEnding_keeps (s : State) (x : Pos) :
    (enterEnding s x).partTime = s.partTime ∧ (enterEnding s x).pins = s.pins ∧ (enterEnding s x).relay = s.relay ∧
      (enterEnding s x).handler = s.handler ∧ (enterEnding s x).store = s.store ∧ (enterEnding s x).ctl = s.ctl ∧
      (enterEnding s x).tables = s.tables ∧ (enterEnding s x).detector = s.detector ∧ (enterEnding s x).clock = s.clock ∧
      (enterEnding s x).sched = s.sched ∧ (enterEnding s x).prot = s.prot ∧ (enterEnding s x).pending = s.pending ∧
      (enterEnding s x).freeCount = s.freeCount := by
  simp [enterEnding]

@[simp] theorem enterWaiting_keeps (s : State) (i : EntryNo) (x : Pos) :
    (enterWaiting s i x).partTime = s.partTime ∧ (enterWaiting s i x).pins = s.pins ∧
      (enterWaiting s i x).relay = s.relay ∧ (enterWaiting s i x).handler = s.handler ∧
      (enterWaiting s i x).store = s.store ∧ (enterWaiting s i x).ctl = s.ctl ∧ (enterWaiting s i x).tables = s.tables ∧
      (enterWaiting s i x).detector = s.detector ∧ (enterWaiting s i x).sched = s.sched ∧
      (enterWaiting s i x).prot = s.prot ∧ (enterWaiting s i x).pending = s.pending ∧
      (enterWaiting s i x).freeCount = s.freeCount := by
  simp [enterWaiting]

@[simp] theorem makeCurrent_keeps (s : State) (i : EntryNo) :
    (makeCurrent s i).partTime = s.partTime ∧ (makeCurrent s i).pins = s.pins ∧ (makeCurrent s i).relay = s.relay ∧
      (makeCurrent s i).handler = s.handler ∧ (makeCurrent s i).store = s.store ∧ (makeCurrent s i).ctl = s.ctl ∧
      (makeCurrent s i).tables = s.tables ∧ (makeCurrent s i).detector = s.detector ∧ (makeCurrent s i).clock = s.clock ∧
      (makeCurrent s i).prot = s.prot ∧ (makeCurrent s i).pending = s.pending ∧
      (makeCurrent s i).freeCount = s.freeCount := by
  simp [makeCurrent]

@[simp] theorem applyEntryTempo_keeps (s : State) (i : EntryNo) :
    (applyEntryTempo s i).partTime = s.partTime ∧ (applyEntryTempo s i).pins = s.pins ∧
      (applyEntryTempo s i).store = s.store ∧ (applyEntryTempo s i).ctl = s.ctl ∧
      (applyEntryTempo s i).tables = s.tables ∧ (applyEntryTempo s i).detector = s.detector ∧
      (applyEntryTempo s i).follower = s.follower ∧ (applyEntryTempo s i).sched = s.sched ∧
      (applyEntryTempo s i).prot = s.prot ∧ (applyEntryTempo s i).pending = s.pending ∧
      (applyEntryTempo s i).freeCount = s.freeCount := by
  simp only [applyEntryTempo]
  (repeat' split) <;> simp

@[simp] theorem releasePassed_keeps (s : State) :
    (releasePassed s).partTime = s.partTime ∧ (releasePassed s).pins = s.pins ∧ (releasePassed s).relay = s.relay ∧
      (releasePassed s).handler = s.handler ∧ (releasePassed s).store = s.store ∧ (releasePassed s).ctl = s.ctl ∧
      (releasePassed s).tables = s.tables ∧ (releasePassed s).detector = s.detector ∧ (releasePassed s).clock = s.clock ∧
      (releasePassed s).sched = s.sched ∧ (releasePassed s).prot = s.prot ∧ (releasePassed s).pending = s.pending ∧
      (releasePassed s).freeCount = s.freeCount := by
  simp only [releasePassed]
  (repeat' split) <;> simp

@[simp] theorem resumeClock_keeps (s : State) :
    (resumeClock s).partTime = s.partTime ∧ (resumeClock s).pins = s.pins ∧ (resumeClock s).store = s.store ∧
      (resumeClock s).ctl = s.ctl ∧ (resumeClock s).tables = s.tables ∧ (resumeClock s).detector = s.detector ∧
      (resumeClock s).follower = s.follower ∧ (resumeClock s).sched = s.sched ∧ (resumeClock s).prot = s.prot ∧
      (resumeClock s).pending = s.pending ∧ (resumeClock s).freeCount = s.freeCount := by
  simp only [resumeClock]
  (repeat' split) <;> simp

@[simp] theorem beginAt_keeps (s : State) (o x : Pos) :
    (beginAt s o x).partTime = s.partTime ∧ (beginAt s o x).pins = s.pins ∧ (beginAt s o x).relay = s.relay ∧
      (beginAt s o x).handler = s.handler ∧ (beginAt s o x).store = s.store ∧ (beginAt s o x).ctl = s.ctl ∧
      (beginAt s o x).tables = s.tables ∧ (beginAt s o x).detector = s.detector ∧ (beginAt s o x).clock = s.clock ∧
      (beginAt s o x).prot = s.prot ∧ (beginAt s o x).pending = s.pending ∧ (beginAt s o x).freeCount = s.freeCount := by
  simp [beginAt]

@[simp] theorem postPhrase_keeps (s : State) (i : EntryNo) (m : Manner) :
    (postPhrase s i m).partTime = s.partTime ∧ (postPhrase s i m).pins = s.pins ∧ (postPhrase s i m).store = s.store ∧
      (postPhrase s i m).ctl = s.ctl ∧ (postPhrase s i m).tables = s.tables ∧ (postPhrase s i m).detector = s.detector ∧
      (postPhrase s i m).clock = s.clock ∧ (postPhrase s i m).follower = s.follower ∧
      (postPhrase s i m).sched = s.sched ∧ (postPhrase s i m).prot = s.prot ∧ (postPhrase s i m).pending = s.pending ∧
      (postPhrase s i m).freeCount = s.freeCount := by
  simp [postPhrase]

@[simp] theorem beginOrgan_keeps (s : State) (i : EntryNo) (o x : Pos) (m : Manner) :
    (beginOrgan s i o x m).partTime = s.partTime ∧ (beginOrgan s i o x m).pins = s.pins ∧
      (beginOrgan s i o x m).store = s.store ∧ (beginOrgan s i o x m).ctl = s.ctl ∧
      (beginOrgan s i o x m).tables = s.tables ∧ (beginOrgan s i o x m).detector = s.detector ∧
      (beginOrgan s i o x m).prot = s.prot ∧ (beginOrgan s i o x m).pending = s.pending ∧
      (beginOrgan s i o x m).freeCount = s.freeCount := by
  simp [beginOrgan]

@[simp] theorem enterEntry_keeps (s : State) (i : EntryNo) (x : Pos) :
    (enterEntry s i x).partTime = s.partTime ∧ (enterEntry s i x).pins = s.pins ∧ (enterEntry s i x).store = s.store ∧
      (enterEntry s i x).ctl = s.ctl ∧ (enterEntry s i x).tables = s.tables ∧ (enterEntry s i x).detector = s.detector ∧
      (enterEntry s i x).prot = s.prot ∧ (enterEntry s i x).pending = s.pending ∧
      (enterEntry s i x).freeCount = s.freeCount := by
  simp only [enterEntry]
  (repeat' split) <;> simp

@[simp] theorem settleFor_keeps (n : Nat) (s : State) :
    (settleFor n s).partTime = s.partTime ∧ (settleFor n s).pins = s.pins ∧ (settleFor n s).store = s.store ∧
      (settleFor n s).ctl = s.ctl ∧ (settleFor n s).tables = s.tables ∧ (settleFor n s).detector = s.detector ∧
      (settleFor n s).prot = s.prot ∧ (settleFor n s).pending = s.pending ∧ (settleFor n s).freeCount = s.freeCount := by
  induction n generalizing s with
  | zero => simp [settleFor]
  | succ n ih =>
    simp only [settleFor]
    (repeat' split) <;> simp [ih]

@[simp] theorem settle_keeps (s : State) :
    (settle s).partTime = s.partTime ∧ (settle s).pins = s.pins ∧ (settle s).store = s.store ∧ (settle s).ctl = s.ctl ∧
      (settle s).tables = s.tables ∧ (settle s).detector = s.detector ∧ (settle s).prot = s.prot ∧
      (settle s).pending = s.pending ∧ (settle s).freeCount = s.freeCount := by
  simp [settle]

@[simp] theorem applyPeriod_keeps (s : State) (p : Nat) :
    (applyPeriod s p).partTime = s.partTime ∧ (applyPeriod s p).pins = s.pins ∧ (applyPeriod s p).store = s.store ∧
      (applyPeriod s p).ctl = s.ctl ∧ (applyPeriod s p).tables = s.tables ∧ (applyPeriod s p).detector = s.detector ∧
      (applyPeriod s p).prot = s.prot ∧ (applyPeriod s p).pending = s.pending ∧
      (applyPeriod s p).freeCount = s.freeCount := by
  simp [applyPeriod]

@[simp] theorem startPlay_keeps (s : State) (request : Option Nat) :
    (startPlay s request).partTime = s.partTime ∧ (startPlay s request).pins = s.pins ∧
      (startPlay s request).store = s.store ∧ (startPlay s request).ctl = s.ctl ∧
      (startPlay s request).tables = s.tables ∧ (startPlay s request).detector = s.detector ∧
      (startPlay s request).prot = s.prot ∧ (startPlay s request).pending = s.pending ∧
      (startPlay s request).freeCount = s.freeCount := by
  simp only [startPlay]
  (repeat' split) <;> simp

@[simp] theorem finishPlay_keeps (s : State) :
    (finishPlay s).partTime = s.partTime ∧ (finishPlay s).pins = s.pins ∧ (finishPlay s).relay = s.relay ∧
      (finishPlay s).handler = s.handler ∧ (finishPlay s).store = s.store ∧ (finishPlay s).ctl = s.ctl ∧
      (finishPlay s).tables = s.tables ∧ (finishPlay s).detector = s.detector ∧ (finishPlay s).clock = s.clock ∧
      (finishPlay s).sched = s.sched ∧ (finishPlay s).prot = s.prot ∧ (finishPlay s).pending = s.pending ∧
      (finishPlay s).freeCount = s.freeCount := by
  simp only [finishPlay]
  (repeat' split) <;> simp

@[simp] theorem setConf_keeps (s : State) (n : Nat) (c : Conf) (run : Nat) :
    (setConf s n c run).partTime = s.partTime ∧ (setConf s n c run).pins = s.pins ∧
      (setConf s n c run).relay = s.relay ∧ (setConf s n c run).handler = s.handler ∧
      (setConf s n c run).store = s.store ∧ (setConf s n c run).ctl = s.ctl ∧ (setConf s n c run).tables = s.tables ∧
      (setConf s n c run).detector = s.detector ∧ (setConf s n c run).clock = s.clock ∧
      (setConf s n c run).sched = s.sched ∧ (setConf s n c run).prot = s.prot ∧
      (setConf s n c run).pending = s.pending ∧ (setConf s n c run).freeCount = s.freeCount := by
  simp [setConf]

@[simp] theorem announce_keeps (found : Conf) (s : State) :
    (announce found s).partTime = s.partTime ∧ (announce found s).pins = s.pins ∧
      (announce found s).store = s.store ∧ (announce found s).ctl = s.ctl ∧ (announce found s).tables = s.tables ∧
      (announce found s).detector = s.detector ∧ (announce found s).clock = s.clock ∧
      (announce found s).follower = s.follower ∧ (announce found s).sched = s.sched ∧
      (announce found s).prot = s.prot ∧ (announce found s).pending = s.pending ∧
      (announce found s).freeCount = s.freeCount := by
  simp only [announce]
  (repeat' split) <;> simp

@[simp] theorem warnRise_keeps (s : State) (old new : Nat) :
    (warnRise s old new).partTime = s.partTime ∧ (warnRise s old new).pins = s.pins ∧
      (warnRise s old new).store = s.store ∧ (warnRise s old new).ctl = s.ctl ∧ (warnRise s old new).tables = s.tables ∧
      (warnRise s old new).detector = s.detector ∧ (warnRise s old new).clock = s.clock ∧
      (warnRise s old new).follower = s.follower ∧ (warnRise s old new).sched = s.sched ∧
      (warnRise s old new).prot = s.prot ∧ (warnRise s old new).pending = s.pending ∧
      (warnRise s old new).freeCount = s.freeCount := by
  simp only [warnRise]
  (repeat' split) <;> simp

@[simp] theorem confRise_keeps (s : State) (n : Nat) :
    (confRise s n).partTime = s.partTime ∧ (confRise s n).pins = s.pins ∧ (confRise s n).store = s.store ∧
      (confRise s n).ctl = s.ctl ∧ (confRise s n).tables = s.tables ∧ (confRise s n).detector = s.detector ∧
      (confRise s n).clock = s.clock ∧ (confRise s n).sched = s.sched ∧ (confRise s n).prot = s.prot ∧
      (confRise s n).pending = s.pending ∧ (confRise s n).freeCount = s.freeCount := by
  simp only [confRise]
  (repeat' split) <;> simp

@[simp] theorem confMatch_keeps (s : State) :
    (confMatch s).partTime = s.partTime ∧ (confMatch s).pins = s.pins ∧ (confMatch s).store = s.store ∧
      (confMatch s).ctl = s.ctl ∧ (confMatch s).tables = s.tables ∧ (confMatch s).detector = s.detector ∧
      (confMatch s).clock = s.clock ∧ (confMatch s).sched = s.sched ∧ (confMatch s).prot = s.prot ∧
      (confMatch s).pending = s.pending ∧ (confMatch s).freeCount = s.freeCount := by
  simp only [confMatch]
  (repeat' split) <;> simp

@[simp] theorem recoverConf_keeps (s : State) :
    (recoverConf s).partTime = s.partTime ∧ (recoverConf s).pins = s.pins ∧ (recoverConf s).store = s.store ∧
      (recoverConf s).ctl = s.ctl ∧ (recoverConf s).tables = s.tables ∧ (recoverConf s).detector = s.detector ∧
      (recoverConf s).clock = s.clock ∧ (recoverConf s).sched = s.sched ∧ (recoverConf s).prot = s.prot ∧
      (recoverConf s).pending = s.pending ∧ (recoverConf s).freeCount = s.freeCount := by
  simp [recoverConf]

@[simp] theorem walkPast_keeps (s : State) (p : Point) :
    (walkPast s p).partTime = s.partTime ∧ (walkPast s p).pins = s.pins ∧ (walkPast s p).relay = s.relay ∧
      (walkPast s p).handler = s.handler ∧ (walkPast s p).store = s.store ∧ (walkPast s p).ctl = s.ctl ∧
      (walkPast s p).tables = s.tables ∧ (walkPast s p).detector = s.detector ∧ (walkPast s p).clock = s.clock ∧
      (walkPast s p).sched = s.sched ∧ (walkPast s p).prot = s.prot ∧ (walkPast s p).pending = s.pending ∧
      (walkPast s p).freeCount = s.freeCount := by
  simp only [walkPast]
  (repeat' split) <;> simp

@[simp] theorem openPoint_keeps (s : State) (p : Point) :
    (openPoint s p).partTime = s.partTime ∧ (openPoint s p).pins = s.pins ∧ (openPoint s p).relay = s.relay ∧
      (openPoint s p).handler = s.handler ∧ (openPoint s p).store = s.store ∧ (openPoint s p).ctl = s.ctl ∧
      (openPoint s p).tables = s.tables ∧ (openPoint s p).detector = s.detector ∧ (openPoint s p).clock = s.clock ∧
      (openPoint s p).sched = s.sched ∧ (openPoint s p).prot = s.prot ∧ (openPoint s p).pending = s.pending ∧
      (openPoint s p).freeCount = s.freeCount := by
  simp only [openPoint]
  (repeat' split) <;> simp

@[simp] theorem openReachedFor_keeps (n : Nat) (s : State) :
    (openReachedFor n s).partTime = s.partTime ∧ (openReachedFor n s).pins = s.pins ∧
      (openReachedFor n s).relay = s.relay ∧ (openReachedFor n s).handler = s.handler ∧
      (openReachedFor n s).store = s.store ∧ (openReachedFor n s).ctl = s.ctl ∧ (openReachedFor n s).tables = s.tables ∧
      (openReachedFor n s).detector = s.detector ∧ (openReachedFor n s).clock = s.clock ∧
      (openReachedFor n s).sched = s.sched ∧ (openReachedFor n s).prot = s.prot ∧
      (openReachedFor n s).pending = s.pending ∧ (openReachedFor n s).freeCount = s.freeCount := by
  induction n generalizing s with
  | zero => simp [openReachedFor]
  | succ n ih =>
    simp only [openReachedFor]
    (repeat' split) <;> simp [ih]

@[simp] theorem openReached_keeps (s : State) :
    (openReached s).partTime = s.partTime ∧ (openReached s).pins = s.pins ∧ (openReached s).relay = s.relay ∧
      (openReached s).handler = s.handler ∧ (openReached s).store = s.store ∧ (openReached s).ctl = s.ctl ∧
      (openReached s).tables = s.tables ∧ (openReached s).detector = s.detector ∧ (openReached s).clock = s.clock ∧
      (openReached s).sched = s.sched ∧ (openReached s).prot = s.prot ∧ (openReached s).pending = s.pending ∧
      (openReached s).freeCount = s.freeCount := by
  simp [openReached]

@[simp] theorem miss_keeps (s : State) :
    (miss s).partTime = s.partTime ∧ (miss s).pins = s.pins ∧ (miss s).store = s.store ∧ (miss s).ctl = s.ctl ∧
      (miss s).tables = s.tables ∧ (miss s).detector = s.detector ∧ (miss s).clock = s.clock ∧ (miss s).sched = s.sched ∧
      (miss s).prot = s.prot ∧ (miss s).pending = s.pending ∧ (miss s).freeCount = s.freeCount := by
  simp [miss]

@[simp] theorem misses_keeps (n : Nat) (s : State) :
    (misses n s).partTime = s.partTime ∧ (misses n s).pins = s.pins ∧ (misses n s).store = s.store ∧
      (misses n s).ctl = s.ctl ∧ (misses n s).tables = s.tables ∧ (misses n s).detector = s.detector ∧
      (misses n s).clock = s.clock ∧ (misses n s).sched = s.sched ∧ (misses n s).prot = s.prot ∧
      (misses n s).pending = s.pending ∧ (misses n s).freeCount = s.freeCount := by
  induction n generalizing s with
  | zero => simp [misses]
  | succ n ih => simp [misses, ih]

@[simp] theorem closePassed_keeps (s : State) :
    (closePassed s).partTime = s.partTime ∧ (closePassed s).pins = s.pins ∧ (closePassed s).store = s.store ∧
      (closePassed s).ctl = s.ctl ∧ (closePassed s).tables = s.tables ∧ (closePassed s).detector = s.detector ∧
      (closePassed s).clock = s.clock ∧ (closePassed s).sched = s.sched ∧ (closePassed s).prot = s.prot ∧
      (closePassed s).pending = s.pending ∧ (closePassed s).freeCount = s.freeCount := by
  simp [closePassed]

@[simp] theorem matchStep_keeps (e : Int) (s : State) (n : StepNo) :
    (matchStep e s n).partTime = s.partTime ∧ (matchStep e s n).pins = s.pins ∧ (matchStep e s n).relay = s.relay ∧
      (matchStep e s n).handler = s.handler ∧ (matchStep e s n).ctl = s.ctl ∧ (matchStep e s n).tables = s.tables ∧
      (matchStep e s n).detector = s.detector ∧ (matchStep e s n).clock = s.clock ∧
      (matchStep e s n).follower = s.follower ∧ (matchStep e s n).sched = s.sched ∧ (matchStep e s n).prot = s.prot ∧
      (matchStep e s n).pending = s.pending ∧ (matchStep e s n).freeCount = s.freeCount := by
  simp [matchStep]

@[simp] theorem writeMatch_keeps (s : State) (p : Point) (e : Int) :
    (writeMatch s p e).partTime = s.partTime ∧ (writeMatch s p e).pins = s.pins ∧ (writeMatch s p e).relay = s.relay ∧
      (writeMatch s p e).handler = s.handler ∧ (writeMatch s p e).ctl = s.ctl ∧ (writeMatch s p e).tables = s.tables ∧
      (writeMatch s p e).detector = s.detector ∧ (writeMatch s p e).clock = s.clock ∧
      (writeMatch s p e).follower = s.follower ∧ (writeMatch s p e).sched = s.sched ∧ (writeMatch s p e).prot = s.prot ∧
      (writeMatch s p e).pending = s.pending ∧ (writeMatch s p e).freeCount = s.freeCount := by
  unfold writeMatch
  generalize p.steps = l
  induction l generalizing s with
  | nil => simp
  | cons x l ih => simp only [List.foldl]; simp [ih]

@[simp] theorem clearBelow_keeps (s : State) (x : Pos) :
    (clearBelow s x).partTime = s.partTime ∧ (clearBelow s x).pins = s.pins ∧ (clearBelow s x).relay = s.relay ∧
      (clearBelow s x).handler = s.handler ∧ (clearBelow s x).store = s.store ∧ (clearBelow s x).ctl = s.ctl ∧
      (clearBelow s x).tables = s.tables ∧ (clearBelow s x).detector = s.detector ∧ (clearBelow s x).clock = s.clock ∧
      (clearBelow s x).sched = s.sched ∧ (clearBelow s x).prot = s.prot ∧ (clearBelow s x).pending = s.pending ∧
      (clearBelow s x).freeCount = s.freeCount := by
  simp [clearBelow]

@[simp] theorem syncClock_keeps (s : State) (tOn : PartTime) (x : Pos) :
    (syncClock s tOn x).partTime = s.partTime ∧ (syncClock s tOn x).pins = s.pins ∧
      (syncClock s tOn x).store = s.store ∧ (syncClock s tOn x).ctl = s.ctl ∧ (syncClock s tOn x).tables = s.tables ∧
      (syncClock s tOn x).detector = s.detector ∧ (syncClock s tOn x).follower = s.follower ∧
      (syncClock s tOn x).sched = s.sched ∧ (syncClock s tOn x).prot = s.prot ∧
      (syncClock s tOn x).pending = s.pending ∧ (syncClock s tOn x).freeCount = s.freeCount := by
  simp only [syncClock]
  (repeat' split) <;> simp

@[simp] theorem hardSync_keeps (s : State) (tOn : PartTime) (p : Point) (e : Int) :
    (hardSync s tOn p e).partTime = s.partTime ∧ (hardSync s tOn p e).pins = s.pins ∧
      (hardSync s tOn p e).ctl = s.ctl ∧ (hardSync s tOn p e).tables = s.tables ∧
      (hardSync s tOn p e).detector = s.detector ∧ (hardSync s tOn p e).sched = s.sched ∧
      (hardSync s tOn p e).prot = s.prot ∧ (hardSync s tOn p e).pending = s.pending ∧
      (hardSync s tOn p e).freeCount = s.freeCount := by
  simp only [hardSync]
  (repeat' split) <;> simp

@[simp] theorem dropHold_keeps (s : State) :
    (dropHold s).partTime = s.partTime ∧ (dropHold s).pins = s.pins ∧ (dropHold s).relay = s.relay ∧
      (dropHold s).handler = s.handler ∧ (dropHold s).store = s.store ∧ (dropHold s).ctl = s.ctl ∧
      (dropHold s).tables = s.tables ∧ (dropHold s).detector = s.detector ∧ (dropHold s).clock = s.clock ∧
      (dropHold s).sched = s.sched ∧ (dropHold s).prot = s.prot ∧ (dropHold s).pending = s.pending ∧
      (dropHold s).freeCount = s.freeCount := by
  simp [dropHold]

@[simp] theorem releaseStop_keeps (s : State) :
    (releaseStop s).partTime = s.partTime ∧ (releaseStop s).pins = s.pins ∧ (releaseStop s).store = s.store ∧
      (releaseStop s).ctl = s.ctl ∧ (releaseStop s).tables = s.tables ∧ (releaseStop s).detector = s.detector ∧
      (releaseStop s).prot = s.prot ∧ (releaseStop s).pending = s.pending ∧
      (releaseStop s).freeCount = s.freeCount := by
  simp only [releaseStop]
  (repeat' split) <;> simp

@[simp] theorem correctMatch_keeps (s : State) (tOn : PartTime) (p : Point) (e : Int) :
    (correctMatch s tOn p e).partTime = s.partTime ∧ (correctMatch s tOn p e).pins = s.pins ∧
      (correctMatch s tOn p e).store = s.store ∧ (correctMatch s tOn p e).ctl = s.ctl ∧
      (correctMatch s tOn p e).tables = s.tables ∧ (correctMatch s tOn p e).detector = s.detector ∧
      (correctMatch s tOn p e).prot = s.prot ∧ (correctMatch s tOn p e).pending = s.pending ∧
      (correctMatch s tOn p e).freeCount = s.freeCount := by
  simp only [correctMatch]
  (repeat' split) <;> simp

@[simp] theorem matchPoint_keeps (s : State) (tOn : PartTime) (p : Point) :
    (matchPoint s tOn p).partTime = s.partTime ∧ (matchPoint s tOn p).pins = s.pins ∧ (matchPoint s tOn p).ctl = s.ctl ∧
      (matchPoint s tOn p).tables = s.tables ∧ (matchPoint s tOn p).detector = s.detector ∧
      (matchPoint s tOn p).prot = s.prot ∧ (matchPoint s tOn p).pending = s.pending ∧
      (matchPoint s tOn p).freeCount = s.freeCount := by
  simp only [matchPoint]
  (repeat' split) <;> simp

@[simp] theorem matchOnset_keeps (s : State) (o : Onset) :
    (matchOnset s o).partTime = s.partTime ∧ (matchOnset s o).pins = s.pins ∧ (matchOnset s o).ctl = s.ctl ∧
      (matchOnset s o).tables = s.tables ∧ (matchOnset s o).detector = s.detector ∧ (matchOnset s o).prot = s.prot ∧
      (matchOnset s o).pending = s.pending ∧ (matchOnset s o).freeCount = s.freeCount := by
  simp only [matchOnset]
  (repeat' split) <;> simp

@[simp] theorem endWait_keeps (s : State) (m : Manner) :
    (endWait s m).partTime = s.partTime ∧ (endWait s m).pins = s.pins ∧ (endWait s m).store = s.store ∧
      (endWait s m).ctl = s.ctl ∧ (endWait s m).tables = s.tables ∧ (endWait s m).detector = s.detector ∧
      (endWait s m).prot = s.prot ∧ (endWait s m).pending = s.pending ∧ (endWait s m).freeCount = s.freeCount := by
  simp only [endWait]
  (repeat' split) <;> simp

@[simp] theorem syncWait_keeps (s : State) (o : Onset) :
    (syncWait s o).partTime = s.partTime ∧ (syncWait s o).pins = s.pins ∧ (syncWait s o).ctl = s.ctl ∧
      (syncWait s o).tables = s.tables ∧ (syncWait s o).detector = s.detector ∧ (syncWait s o).prot = s.prot ∧
      (syncWait s o).pending = s.pending ∧ (syncWait s o).freeCount = s.freeCount := by
  simp only [syncWait]
  (repeat' split) <;> simp

@[simp] theorem releaseHold_keeps (s : State) :
    (releaseHold s).partTime = s.partTime ∧ (releaseHold s).pins = s.pins ∧ (releaseHold s).store = s.store ∧
      (releaseHold s).ctl = s.ctl ∧ (releaseHold s).tables = s.tables ∧ (releaseHold s).detector = s.detector ∧
      (releaseHold s).prot = s.prot ∧ (releaseHold s).pending = s.pending ∧ (releaseHold s).freeCount = s.freeCount := by
  simp only [releaseHold]
  (repeat' split) <;> simp

@[simp] theorem syncInPhrase_keeps (s : State) (o : Onset) (p : Point) :
    (syncInPhrase s o p).partTime = s.partTime ∧ (syncInPhrase s o p).pins = s.pins ∧ (syncInPhrase s o p).ctl = s.ctl ∧
      (syncInPhrase s o p).tables = s.tables ∧ (syncInPhrase s o p).detector = s.detector ∧
      (syncInPhrase s o p).prot = s.prot ∧ (syncInPhrase s o p).pending = s.pending ∧
      (syncInPhrase s o p).freeCount = s.freeCount := by
  simp [syncInPhrase]

@[simp] theorem syncIntoNext_keeps (s : State) (o : Onset) (i : EntryNo) (p : Point) :
    (syncIntoNext s o i p).partTime = s.partTime ∧ (syncIntoNext s o i p).pins = s.pins ∧
      (syncIntoNext s o i p).ctl = s.ctl ∧ (syncIntoNext s o i p).tables = s.tables ∧
      (syncIntoNext s o i p).detector = s.detector ∧ (syncIntoNext s o i p).prot = s.prot ∧
      (syncIntoNext s o i p).pending = s.pending ∧ (syncIntoNext s o i p).freeCount = s.freeCount := by
  simp [syncIntoNext]

@[simp] theorem syncHold_keeps (s : State) (o : Onset) :
    (syncHold s o).partTime = s.partTime ∧ (syncHold s o).pins = s.pins ∧ (syncHold s o).ctl = s.ctl ∧
      (syncHold s o).tables = s.tables ∧ (syncHold s o).detector = s.detector ∧ (syncHold s o).prot = s.prot ∧
      (syncHold s o).pending = s.pending ∧ (syncHold s o).freeCount = s.freeCount := by
  simp only [syncHold]
  (repeat' split) <;> simp

@[simp] theorem takeOnset_keeps (s : State) (o : Onset) :
    (takeOnset s o).partTime = s.partTime ∧ (takeOnset s o).pins = s.pins ∧ (takeOnset s o).ctl = s.ctl ∧
      (takeOnset s o).tables = s.tables ∧ (takeOnset s o).detector = s.detector ∧ (takeOnset s o).prot = s.prot ∧
      (takeOnset s o).pending = s.pending ∧ (takeOnset s o).freeCount = s.freeCount := by
  simp only [takeOnset]
  (repeat' split) <;> simp

@[simp] theorem deliverOnset_keeps (s : State) (o : Onset) :
    (deliverOnset s o).partTime = s.partTime ∧ (deliverOnset s o).pins = s.pins ∧ (deliverOnset s o).ctl = s.ctl ∧
      (deliverOnset s o).tables = s.tables ∧ (deliverOnset s o).detector = s.detector ∧
      (deliverOnset s o).prot = s.prot ∧ (deliverOnset s o).pending = s.pending ∧
      (deliverOnset s o).freeCount = s.freeCount := by
  simp only [deliverOnset]
  (repeat' split) <;> simp

@[simp] theorem deliverCutoff_keeps (s : State) (c : Cutoff) :
    (deliverCutoff s c).partTime = s.partTime ∧ (deliverCutoff s c).pins = s.pins ∧
      (deliverCutoff s c).store = s.store ∧ (deliverCutoff s c).ctl = s.ctl ∧ (deliverCutoff s c).tables = s.tables ∧
      (deliverCutoff s c).detector = s.detector ∧ (deliverCutoff s c).prot = s.prot ∧
      (deliverCutoff s c).pending = s.pending ∧ (deliverCutoff s c).freeCount = s.freeCount := by
  simp only [deliverCutoff]
  (repeat' split) <;> simp

@[simp] theorem checkWait_keeps (s : State) :
    (checkWait s).partTime = s.partTime ∧ (checkWait s).pins = s.pins ∧ (checkWait s).store = s.store ∧
      (checkWait s).ctl = s.ctl ∧ (checkWait s).tables = s.tables ∧ (checkWait s).detector = s.detector ∧
      (checkWait s).prot = s.prot ∧ (checkWait s).pending = s.pending ∧ (checkWait s).freeCount = s.freeCount := by
  simp only [checkWait]
  (repeat' split) <;> simp

@[simp] theorem takeHeld_keeps (s : State) :
    (takeHeld s).partTime = s.partTime ∧ (takeHeld s).pins = s.pins ∧ (takeHeld s).ctl = s.ctl ∧
      (takeHeld s).tables = s.tables ∧ (takeHeld s).detector = s.detector ∧ (takeHeld s).prot = s.prot ∧
      (takeHeld s).pending = s.pending ∧ (takeHeld s).freeCount = s.freeCount := by
  have keeps : ∀ (l : List Onset) (t : State), ((l.foldl takeOnset t).partTime = t.partTime ∧ (l.foldl takeOnset t).pins = t.pins ∧ (l.foldl takeOnset t).ctl = t.ctl ∧ (l.foldl takeOnset t).tables = t.tables ∧ (l.foldl takeOnset t).detector = t.detector ∧ (l.foldl takeOnset t).prot = t.prot ∧ (l.foldl takeOnset t).pending = t.pending ∧ (l.foldl takeOnset t).freeCount = t.freeCount) := by
    intro l
    induction l with
    | nil => simp
    | cons x l ih => intro t; simp only [List.foldl]; simp [ih]
  simp only [takeHeld]
  (repeat' split) <;> simp [keeps]

@[simp] theorem joinLists_keeps (s : State) :
    (joinLists s).partTime = s.partTime ∧ (joinLists s).pins = s.pins ∧ (joinLists s).ctl = s.ctl ∧
      (joinLists s).tables = s.tables ∧ (joinLists s).detector = s.detector ∧ (joinLists s).prot = s.prot ∧
      (joinLists s).pending = s.pending ∧ (joinLists s).freeCount = s.freeCount := by
  simp only [joinLists]
  (repeat' split) <;> simp

@[simp] theorem idleFollower_keeps (s : State) :
    (idleFollower s).partTime = s.partTime ∧ (idleFollower s).pins = s.pins ∧ (idleFollower s).relay = s.relay ∧
      (idleFollower s).handler = s.handler ∧ (idleFollower s).store = s.store ∧ (idleFollower s).ctl = s.ctl ∧
      (idleFollower s).tables = s.tables ∧ (idleFollower s).detector = s.detector ∧ (idleFollower s).clock = s.clock ∧
      (idleFollower s).sched = s.sched ∧ (idleFollower s).prot = s.prot ∧ (idleFollower s).pending = s.pending ∧
      (idleFollower s).freeCount = s.freeCount := by
  simp [idleFollower]

@[simp] theorem stopPlay_keeps (s : State) :
    (stopPlay s).partTime = s.partTime ∧ (stopPlay s).pins = s.pins ∧
      (stopPlay s).store = s.store ∧ (stopPlay s).ctl = s.ctl ∧ (stopPlay s).tables = s.tables ∧
      (stopPlay s).detector = s.detector ∧ (stopPlay s).prot = s.prot ∧ (stopPlay s).pending = s.pending ∧
      (stopPlay s).freeCount = s.freeCount := by
  simp [stopPlay]

@[simp] theorem stopIfPlaying_keeps (s : State) :
    (stopIfPlaying s).partTime = s.partTime ∧ (stopIfPlaying s).pins = s.pins ∧
      (stopIfPlaying s).store = s.store ∧ (stopIfPlaying s).ctl = s.ctl ∧ (stopIfPlaying s).tables = s.tables ∧
      (stopIfPlaying s).detector = s.detector ∧ (stopIfPlaying s).prot = s.prot ∧ (stopIfPlaying s).pending = s.pending ∧
      (stopIfPlaying s).freeCount = s.freeCount := by
  simp only [stopIfPlaying]
  (repeat' split) <;> simp

@[simp] theorem endPlay_keeps (s : State) :
    (endPlay s).partTime = s.partTime ∧ (endPlay s).pins = s.pins ∧ (endPlay s).store = s.store ∧
      (endPlay s).ctl = s.ctl ∧ (endPlay s).tables = s.tables ∧ (endPlay s).detector = s.detector ∧
      (endPlay s).prot = s.prot ∧ (endPlay s).pending = s.pending ∧ (endPlay s).freeCount = s.freeCount := by
  simp [endPlay]

@[simp] theorem markMerged_keeps (s : State) :
    (markMerged s).partTime = s.partTime ∧ (markMerged s).pins = s.pins ∧ (markMerged s).handler = s.handler ∧
      (markMerged s).store = s.store ∧ (markMerged s).ctl = s.ctl ∧ (markMerged s).tables = s.tables ∧
      (markMerged s).detector = s.detector ∧ (markMerged s).clock = s.clock ∧ (markMerged s).follower = s.follower ∧
      (markMerged s).sched = s.sched ∧ (markMerged s).prot = s.prot ∧ (markMerged s).pending = s.pending ∧
      (markMerged s).freeCount = s.freeCount := by
  simp only [markMerged, Division.all, List.foldl]
  (repeat' split) <;> simp

@[simp] theorem enterMode_keeps (s : State) (m : Mode) :
    (enterMode s m).partTime = s.partTime ∧ (enterMode s m).pins = s.pins ∧ (enterMode s m).handler = s.handler ∧
      (enterMode s m).store = s.store ∧ (enterMode s m).ctl = s.ctl ∧ (enterMode s m).tables = s.tables ∧
      (enterMode s m).detector = s.detector ∧ (enterMode s m).clock = s.clock ∧ (enterMode s m).sched = s.sched ∧
      (enterMode s m).prot = s.prot ∧ (enterMode s m).pending = s.pending ∧ (enterMode s m).freeCount = s.freeCount := by
  simp only [enterMode]
  (repeat' split) <;> simp

@[simp] theorem enterSteady_keeps (s : State) :
    (enterSteady s).partTime = s.partTime ∧ (enterSteady s).pins = s.pins ∧ (enterSteady s).store = s.store ∧
      (enterSteady s).ctl = s.ctl ∧ (enterSteady s).tables = s.tables ∧ (enterSteady s).detector = s.detector ∧
      (enterSteady s).prot = s.prot ∧ (enterSteady s).pending = s.pending ∧ (enterSteady s).freeCount = s.freeCount := by
  simp only [enterSteady]
  (repeat' split) <;> simp

@[simp] theorem enterOff_keeps (s : State) :
    (enterOff s).partTime = s.partTime ∧ (enterOff s).pins = s.pins ∧
      (enterOff s).store = s.store ∧ (enterOff s).ctl = s.ctl ∧ (enterOff s).tables = s.tables ∧
      (enterOff s).detector = s.detector ∧ (enterOff s).prot = s.prot ∧ (enterOff s).pending = s.pending ∧
      (enterOff s).freeCount = s.freeCount := by
  simp [enterOff]

@[simp] theorem enterOrWait_keeps (s : State) (m : Mode) :
    (enterOrWait s m).partTime = s.partTime ∧ (enterOrWait s m).pins = s.pins ∧ (enterOrWait s m).store = s.store ∧
      (enterOrWait s m).ctl = s.ctl ∧ (enterOrWait s m).tables = s.tables ∧ (enterOrWait s m).detector = s.detector ∧
      (enterOrWait s m).prot = s.prot ∧ (enterOrWait s m).pending = s.pending ∧
      (enterOrWait s m).freeCount = s.freeCount := by
  simp only [enterOrWait]
  split <;> simp

@[simp] theorem requestMode_keeps (s : State) (m : Mode) :
    (requestMode s m).partTime = s.partTime ∧ (requestMode s m).pins = s.pins ∧ (requestMode s m).store = s.store ∧
      (requestMode s m).ctl = s.ctl ∧ (requestMode s m).tables = s.tables ∧ (requestMode s m).detector = s.detector ∧
      (requestMode s m).prot = s.prot ∧ (requestMode s m).pending = s.pending ∧
      (requestMode s m).freeCount = s.freeCount := by
  simp only [requestMode]
  (repeat' split) <;> simp

@[simp] theorem applyPendingMode_keeps (s : State) :
    (applyPendingMode s).partTime = s.partTime ∧ (applyPendingMode s).pins = s.pins ∧
      (applyPendingMode s).handler = s.handler ∧ (applyPendingMode s).store = s.store ∧
      (applyPendingMode s).ctl = s.ctl ∧ (applyPendingMode s).tables = s.tables ∧
      (applyPendingMode s).detector = s.detector ∧ (applyPendingMode s).clock = s.clock ∧
      (applyPendingMode s).sched = s.sched ∧ (applyPendingMode s).prot = s.prot ∧
      (applyPendingMode s).pending = s.pending ∧ (applyPendingMode s).freeCount = s.freeCount := by
  simp only [applyPendingMode]
  (repeat' split) <;> simp

@[simp] theorem passPhraseEnd_keeps (s : State) :
    (passPhraseEnd s).partTime = s.partTime ∧ (passPhraseEnd s).pins = s.pins ∧ (passPhraseEnd s).store = s.store ∧
      (passPhraseEnd s).ctl = s.ctl ∧ (passPhraseEnd s).tables = s.tables ∧ (passPhraseEnd s).detector = s.detector ∧
      (passPhraseEnd s).prot = s.prot ∧ (passPhraseEnd s).pending = s.pending ∧
      (passPhraseEnd s).freeCount = s.freeCount := by
  simp only [passPhraseEnd]
  (repeat' split) <;> simp

@[simp] theorem engageNext_keeps (s : State) :
    (engageNext s).partTime = s.partTime ∧ (engageNext s).pins = s.pins ∧ (engageNext s).handler = s.handler ∧
      (engageNext s).store = s.store ∧ (engageNext s).ctl = s.ctl ∧ (engageNext s).tables = s.tables ∧
      (engageNext s).detector = s.detector ∧ (engageNext s).clock = s.clock ∧ (engageNext s).prot = s.prot ∧
      (engageNext s).pending = s.pending ∧ (engageNext s).freeCount = s.freeCount := by
  simp only [engageNext]
  (repeat' split) <;> simp

@[simp] theorem expireLeadIn_keeps (s : State) :
    (expireLeadIn s).partTime = s.partTime ∧ (expireLeadIn s).pins = s.pins ∧ (expireLeadIn s).store = s.store ∧
      (expireLeadIn s).ctl = s.ctl ∧ (expireLeadIn s).tables = s.tables ∧ (expireLeadIn s).detector = s.detector ∧
      (expireLeadIn s).prot = s.prot ∧ (expireLeadIn s).pending = s.pending ∧
      (expireLeadIn s).freeCount = s.freeCount := by
  simp only [expireLeadIn]
  (repeat' split) <;> simp

/-! ### Machine/Detector.lean -/

@[simp] theorem mapChannels_keeps (s : State) (f : Fin 4 → Channel → Channel) :
    (mapChannels s f).partTime = s.partTime ∧ (mapChannels s f).pins = s.pins ∧ (mapChannels s f).relay = s.relay ∧
      (mapChannels s f).handler = s.handler ∧ (mapChannels s f).store = s.store ∧ (mapChannels s f).ctl = s.ctl ∧
      (mapChannels s f).tables = s.tables ∧ (mapChannels s f).clock = s.clock ∧ (mapChannels s f).follower = s.follower ∧
      (mapChannels s f).sched = s.sched ∧ (mapChannels s f).prot = s.prot ∧ (mapChannels s f).pending = s.pending ∧
      (mapChannels s f).freeCount = s.freeCount := by
  simp [mapChannels]

@[simp] theorem enterFrame_keeps (s : State) (last seq : Byte) (levels : List Nat) :
    (enterFrame s last seq levels).partTime = s.partTime ∧ (enterFrame s last seq levels).pins = s.pins ∧
      (enterFrame s last seq levels).relay = s.relay ∧ (enterFrame s last seq levels).handler = s.handler ∧
      (enterFrame s last seq levels).store = s.store ∧ (enterFrame s last seq levels).ctl = s.ctl ∧
      (enterFrame s last seq levels).tables = s.tables ∧ (enterFrame s last seq levels).clock = s.clock ∧
      (enterFrame s last seq levels).follower = s.follower ∧ (enterFrame s last seq levels).sched = s.sched ∧
      (enterFrame s last seq levels).prot = s.prot ∧ (enterFrame s last seq levels).pending = s.pending ∧
      (enterFrame s last seq levels).freeCount = s.freeCount := by
  simp [enterFrame]

@[simp] theorem freshen_keeps (s : State) (seq : Byte) (levels : List Nat) :
    (freshen s seq levels).partTime = s.partTime ∧ (freshen s seq levels).pins = s.pins ∧
      (freshen s seq levels).store = s.store ∧ (freshen s seq levels).ctl = s.ctl ∧
      (freshen s seq levels).tables = s.tables ∧ (freshen s seq levels).clock = s.clock ∧
      (freshen s seq levels).follower = s.follower ∧ (freshen s seq levels).sched = s.sched ∧
      (freshen s seq levels).prot = s.prot ∧ (freshen s seq levels).pending = s.pending ∧
      (freshen s seq levels).freeCount = s.freeCount := by
  simp [freshen]

@[simp] theorem closeGather_keeps (s : State) :
    (closeGather s).partTime = s.partTime ∧ (closeGather s).pins = s.pins ∧ (closeGather s).ctl = s.ctl ∧
      (closeGather s).tables = s.tables ∧ (closeGather s).prot = s.prot ∧ (closeGather s).pending = s.pending ∧
      (closeGather s).freeCount = s.freeCount := by
  simp only [closeGather]
  (repeat' split) <;> simp

@[simp] theorem testFiring_keeps (s : State) :
    (testFiring s).partTime = s.partTime ∧ (testFiring s).pins = s.pins ∧ (testFiring s).relay = s.relay ∧
      (testFiring s).handler = s.handler ∧ (testFiring s).store = s.store ∧ (testFiring s).ctl = s.ctl ∧
      (testFiring s).tables = s.tables ∧ (testFiring s).clock = s.clock ∧ (testFiring s).follower = s.follower ∧
      (testFiring s).sched = s.sched ∧ (testFiring s).prot = s.prot ∧ (testFiring s).pending = s.pending ∧
      (testFiring s).freeCount = s.freeCount := by
  simp only [testFiring]
  (repeat' split) <;> simp

@[simp] theorem withCutoff_keeps (s : State) (c : CutoffState) :
    (withCutoff s c).partTime = s.partTime ∧ (withCutoff s c).pins = s.pins ∧ (withCutoff s c).relay = s.relay ∧
      (withCutoff s c).handler = s.handler ∧ (withCutoff s c).store = s.store ∧ (withCutoff s c).ctl = s.ctl ∧
      (withCutoff s c).tables = s.tables ∧ (withCutoff s c).clock = s.clock ∧ (withCutoff s c).follower = s.follower ∧
      (withCutoff s c).sched = s.sched ∧ (withCutoff s c).prot = s.prot ∧ (withCutoff s c).pending = s.pending ∧
      (withCutoff s c).freeCount = s.freeCount := by
  simp [withCutoff]

@[simp] theorem updateCutoff_keeps (s : State) :
    (updateCutoff s).partTime = s.partTime ∧ (updateCutoff s).pins = s.pins ∧ (updateCutoff s).store = s.store ∧
      (updateCutoff s).ctl = s.ctl ∧ (updateCutoff s).tables = s.tables ∧ (updateCutoff s).prot = s.prot ∧
      (updateCutoff s).pending = s.pending ∧ (updateCutoff s).freeCount = s.freeCount := by
  simp only [updateCutoff]
  (repeat' split) <;> simp

@[simp] theorem handleFrame_keeps (s : State) :
    (handleFrame s).partTime = s.partTime ∧ (handleFrame s).pins = s.pins ∧ (handleFrame s).ctl = s.ctl ∧
      (handleFrame s).tables = s.tables ∧ (handleFrame s).prot = s.prot ∧ (handleFrame s).pending = s.pending ∧
      (handleFrame s).freeCount = s.freeCount := by
  simp [handleFrame]

@[simp] theorem takeLevels_keeps (s : State) (seq : Byte) (levels : List Nat) :
    (takeLevels s seq levels).partTime = s.partTime ∧ (takeLevels s seq levels).pins = s.pins ∧
      (takeLevels s seq levels).ctl = s.ctl ∧ (takeLevels s seq levels).tables = s.tables ∧
      (takeLevels s seq levels).prot = s.prot ∧ (takeLevels s seq levels).pending = s.pending ∧
      (takeLevels s seq levels).freeCount = s.freeCount := by
  simp only [takeLevels]
  (repeat' split) <;> simp

@[simp] theorem restDetector_keeps (s : State) :
    (restDetector s).partTime = s.partTime ∧ (restDetector s).pins = s.pins ∧ (restDetector s).relay = s.relay ∧
      (restDetector s).handler = s.handler ∧ (restDetector s).store = s.store ∧ (restDetector s).ctl = s.ctl ∧
      (restDetector s).tables = s.tables ∧ (restDetector s).clock = s.clock ∧ (restDetector s).follower = s.follower ∧
      (restDetector s).sched = s.sched ∧ (restDetector s).prot = s.prot ∧ (restDetector s).pending = s.pending ∧
      (restDetector s).freeCount = s.freeCount := by
  simp [restDetector]

@[simp] theorem becomeStale_keeps (s : State) :
    (becomeStale s).partTime = s.partTime ∧ (becomeStale s).pins = s.pins ∧ (becomeStale s).store = s.store ∧
      (becomeStale s).ctl = s.ctl ∧ (becomeStale s).tables = s.tables ∧ (becomeStale s).clock = s.clock ∧
      (becomeStale s).follower = s.follower ∧ (becomeStale s).sched = s.sched ∧ (becomeStale s).prot = s.prot ∧
      (becomeStale s).pending = s.pending ∧ (becomeStale s).freeCount = s.freeCount := by
  simp [becomeStale]

@[simp] theorem endBoost_keeps (s : State) :
    (endBoost s).partTime = s.partTime ∧ (endBoost s).pins = s.pins ∧ (endBoost s).relay = s.relay ∧
      (endBoost s).handler = s.handler ∧ (endBoost s).store = s.store ∧ (endBoost s).ctl = s.ctl ∧
      (endBoost s).tables = s.tables ∧ (endBoost s).clock = s.clock ∧ (endBoost s).follower = s.follower ∧
      (endBoost s).sched = s.sched ∧ (endBoost s).prot = s.prot ∧ (endBoost s).pending = s.pending ∧
      (endBoost s).freeCount = s.freeCount := by
  simp [endBoost]

@[simp] theorem restartDetector_keeps (s : State) :
    (restartDetector s).partTime = s.partTime ∧ (restartDetector s).pins = s.pins ∧ (restartDetector s).relay = s.relay ∧
      (restartDetector s).handler = s.handler ∧ (restartDetector s).store = s.store ∧ (restartDetector s).ctl = s.ctl ∧
      (restartDetector s).tables = s.tables ∧ (restartDetector s).clock = s.clock ∧
      (restartDetector s).follower = s.follower ∧ (restartDetector s).sched = s.sched ∧
      (restartDetector s).prot = s.prot ∧ (restartDetector s).pending = s.pending ∧
      (restartDetector s).freeCount = s.freeCount := by
  simp [restartDetector]

/-! ### Machine/Protection.lean -/

@[simp] theorem withFault_keeps (s : State) (d : Division) (r : Option FaultRec) :
    (withFault s d r).partTime = s.partTime ∧ (withFault s d r).pins = s.pins ∧ (withFault s d r).relay = s.relay ∧
      (withFault s d r).handler = s.handler ∧ (withFault s d r).store = s.store ∧ (withFault s d r).ctl = s.ctl ∧
      (withFault s d r).tables = s.tables ∧ (withFault s d r).detector = s.detector ∧ (withFault s d r).clock = s.clock ∧
      (withFault s d r).follower = s.follower ∧ (withFault s d r).sched = s.sched ∧
      (withFault s d r).pending = s.pending ∧ (withFault s d r).freeCount = s.freeCount := by
  simp [withFault]

@[simp] theorem postFault_keeps (s : State) (c : FaultCause) (d : Option Division) (k : Option Key) :
    (postFault s c d k).partTime = s.partTime ∧ (postFault s c d k).pins = s.pins ∧ (postFault s c d k).store = s.store ∧
      (postFault s c d k).ctl = s.ctl ∧ (postFault s c d k).tables = s.tables ∧
      (postFault s c d k).detector = s.detector ∧ (postFault s c d k).clock = s.clock ∧
      (postFault s c d k).follower = s.follower ∧ (postFault s c d k).sched = s.sched ∧
      (postFault s c d k).prot = s.prot ∧ (postFault s c d k).pending = s.pending ∧
      (postFault s c d k).freeCount = s.freeCount := by
  simp [postFault]

@[simp] theorem escalate_keeps (s : State) :
    (escalate s).partTime = s.partTime ∧ (escalate s).pins = s.pins ∧
      (escalate s).store = s.store ∧ (escalate s).ctl = s.ctl ∧ (escalate s).tables = s.tables ∧
      (escalate s).detector = s.detector ∧ (escalate s).pending = s.pending ∧ (escalate s).freeCount = s.freeCount := by
  simp [escalate]

@[simp] theorem withdrawDivision_keeps (s : State) (d : Division) (already : Bool) :
    (withdrawDivision s d already).partTime = s.partTime ∧ (withdrawDivision s d already).pins = s.pins ∧
      (withdrawDivision s d already).handler = s.handler ∧ (withdrawDivision s d already).store = s.store ∧
      (withdrawDivision s d already).ctl = s.ctl ∧ (withdrawDivision s d already).tables = s.tables ∧
      (withdrawDivision s d already).detector = s.detector ∧ (withdrawDivision s d already).clock = s.clock ∧
      (withdrawDivision s d already).follower = s.follower ∧ (withdrawDivision s d already).prot = s.prot ∧
      (withdrawDivision s d already).pending = s.pending ∧ (withdrawDivision s d already).freeCount = s.freeCount := by
  simp only [withdrawDivision]
  (repeat' split) <;> simp

@[simp] theorem latchFault_keeps (s : State) (d : Division) (r : FaultRec) :
    (latchFault s d r).partTime = s.partTime ∧ (latchFault s d r).pins = s.pins ∧ (latchFault s d r).store = s.store ∧
      (latchFault s d r).ctl = s.ctl ∧ (latchFault s d r).tables = s.tables ∧ (latchFault s d r).detector = s.detector ∧
      (latchFault s d r).pending = s.pending ∧ (latchFault s d r).freeCount = s.freeCount := by
  simp only [latchFault]
  (repeat' split) <;> simp

@[simp] theorem reportFault_keeps (s : State) (d : Division) (r : FaultRec) :
    (reportFault s d r).partTime = s.partTime ∧ (reportFault s d r).pins = s.pins ∧ (reportFault s d r).store = s.store ∧
      (reportFault s d r).ctl = s.ctl ∧ (reportFault s d r).tables = s.tables ∧
      (reportFault s d r).detector = s.detector ∧ (reportFault s d r).pending = s.pending ∧
      (reportFault s d r).freeCount = s.freeCount := by
  simp only [reportFault]
  (repeat' split) <;> simp

@[simp] theorem windLow_keeps (s : State) :
    (windLow s).partTime = s.partTime ∧ (windLow s).pins = s.pins ∧ (windLow s).store = s.store ∧
      (windLow s).ctl = s.ctl ∧ (windLow s).tables = s.tables ∧ (windLow s).detector = s.detector ∧
      (windLow s).clock = s.clock ∧ (windLow s).follower = s.follower ∧ (windLow s).pending = s.pending ∧
      (windLow s).freeCount = s.freeCount := by
  simp only [windLow, Division.all, List.foldl]
  (repeat' split) <;> simp

@[simp] theorem resumeFreed_keeps (ds : List Division) (before_ s : State) :
    (resumeFreed ds before_ s).partTime = s.partTime ∧ (resumeFreed ds before_ s).pins = s.pins ∧
      (resumeFreed ds before_ s).relay = s.relay ∧ (resumeFreed ds before_ s).handler = s.handler ∧
      (resumeFreed ds before_ s).store = s.store ∧ (resumeFreed ds before_ s).ctl = s.ctl ∧
      (resumeFreed ds before_ s).tables = s.tables ∧ (resumeFreed ds before_ s).detector = s.detector ∧
      (resumeFreed ds before_ s).clock = s.clock ∧ (resumeFreed ds before_ s).follower = s.follower ∧
      (resumeFreed ds before_ s).prot = s.prot ∧ (resumeFreed ds before_ s).pending = s.pending ∧
      (resumeFreed ds before_ s).freeCount = s.freeCount := by
  unfold resumeFreed
  induction ds generalizing s with
  | nil => simp
  | cons x l ih =>
    simp only [List.foldl, ih]
    split <;> simp

@[simp] theorem windOk_keeps (s : State) :
    (windOk s).partTime = s.partTime ∧ (windOk s).pins = s.pins ∧ (windOk s).store = s.store ∧ (windOk s).ctl = s.ctl ∧
      (windOk s).tables = s.tables ∧ (windOk s).detector = s.detector ∧ (windOk s).clock = s.clock ∧
      (windOk s).follower = s.follower ∧ (windOk s).pending = s.pending ∧ (windOk s).freeCount = s.freeCount := by
  simp only [windOk]
  (repeat' split) <;> simp

@[simp] theorem foldl_withFault_keeps (ds : List Division) (s : State) :
    (ds.foldl (fun a d => withFault a d none) s).partTime = s.partTime ∧
      (ds.foldl (fun a d => withFault a d none) s).pins = s.pins ∧
      (ds.foldl (fun a d => withFault a d none) s).relay = s.relay ∧
      (ds.foldl (fun a d => withFault a d none) s).handler = s.handler ∧
      (ds.foldl (fun a d => withFault a d none) s).store = s.store ∧
      (ds.foldl (fun a d => withFault a d none) s).ctl = s.ctl ∧
      (ds.foldl (fun a d => withFault a d none) s).tables = s.tables ∧
      (ds.foldl (fun a d => withFault a d none) s).detector = s.detector ∧
      (ds.foldl (fun a d => withFault a d none) s).clock = s.clock ∧
      (ds.foldl (fun a d => withFault a d none) s).follower = s.follower ∧
      (ds.foldl (fun a d => withFault a d none) s).sched = s.sched ∧
      (ds.foldl (fun a d => withFault a d none) s).pending = s.pending ∧
      (ds.foldl (fun a d => withFault a d none) s).freeCount = s.freeCount := by
  induction ds generalizing s with
  | nil => simp
  | cons x l ih => simp only [List.foldl]; simp [ih]

@[simp] theorem clearFaults_keeps (s : State) (ds : List Division) (named : Option Division) :
    (clearFaults s ds named).partTime = s.partTime ∧ (clearFaults s ds named).pins = s.pins ∧
      (clearFaults s ds named).store = s.store ∧ (clearFaults s ds named).ctl = s.ctl ∧
      (clearFaults s ds named).tables = s.tables ∧ (clearFaults s ds named).detector = s.detector ∧
      (clearFaults s ds named).clock = s.clock ∧ (clearFaults s ds named).follower = s.follower ∧
      (clearFaults s ds named).pending = s.pending ∧ (clearFaults s ds named).freeCount = s.freeCount := by
  simp only [clearFaults]
  (repeat' split) <;> simp

@[simp] theorem forwardUp_keeps (s : State) (bytes : List Byte) :
    (forwardUp s bytes).partTime = s.partTime ∧ (forwardUp s bytes).pins = s.pins ∧
      (forwardUp s bytes).handler = s.handler ∧ (forwardUp s bytes).store = s.store ∧ (forwardUp s bytes).ctl = s.ctl ∧
      (forwardUp s bytes).tables = s.tables ∧ (forwardUp s bytes).detector = s.detector ∧
      (forwardUp s bytes).clock = s.clock ∧ (forwardUp s bytes).follower = s.follower ∧
      (forwardUp s bytes).sched = s.sched ∧ (forwardUp s bytes).prot = s.prot ∧ (forwardUp s bytes).pending = s.pending ∧
      (forwardUp s bytes).freeCount = s.freeCount := by
  simp only [forwardUp]
  (repeat' split) <;> simp

@[simp] theorem faultReport_keeps (rec_ : Division → Nat → FaultRec) (s : State) (addr key : Nat) :
    (faultReport rec_ s addr key).partTime = s.partTime ∧ (faultReport rec_ s addr key).pins = s.pins ∧
      (faultReport rec_ s addr key).store = s.store ∧ (faultReport rec_ s addr key).ctl = s.ctl ∧
      (faultReport rec_ s addr key).tables = s.tables ∧ (faultReport rec_ s addr key).detector = s.detector ∧
      (faultReport rec_ s addr key).pending = s.pending ∧ (faultReport rec_ s addr key).freeCount = s.freeCount := by
  simp only [faultReport]
  (repeat' split) <;> simp

/-! ### Machine/Lists.lean -/

@[simp] theorem withChain_keeps (s : State) (l : ListNo) (c : List StepNo) :
    (withChain s l c).partTime = s.partTime ∧ (withChain s l c).pins = s.pins ∧ (withChain s l c).relay = s.relay ∧
      (withChain s l c).handler = s.handler ∧ (withChain s l c).ctl = s.ctl ∧ (withChain s l c).tables = s.tables ∧
      (withChain s l c).detector = s.detector ∧ (withChain s l c).clock = s.clock ∧
      (withChain s l c).follower = s.follower ∧ (withChain s l c).sched = s.sched ∧ (withChain s l c).prot = s.prot ∧
      (withChain s l c).pending = s.pending ∧ (withChain s l c).freeCount = s.freeCount := by
  simp [withChain]

@[simp] theorem withListField_keeps (s : State) (n : StepNo) (l : ListNo) :
    (withListField s n l).partTime = s.partTime ∧ (withListField s n l).pins = s.pins ∧
      (withListField s n l).relay = s.relay ∧ (withListField s n l).handler = s.handler ∧
      (withListField s n l).ctl = s.ctl ∧ (withListField s n l).tables = s.tables ∧
      (withListField s n l).detector = s.detector ∧ (withListField s n l).clock = s.clock ∧
      (withListField s n l).follower = s.follower ∧ (withListField s n l).sched = s.sched ∧
      (withListField s n l).prot = s.prot ∧ (withListField s n l).pending = s.pending ∧
      (withListField s n l).freeCount = s.freeCount := by
  simp [withListField]

@[simp] theorem unlink_keeps (s : State) (l : ListNo) (n : StepNo) :
    (unlink s l n).partTime = s.partTime ∧ (unlink s l n).pins = s.pins ∧ (unlink s l n).relay = s.relay ∧
      (unlink s l n).handler = s.handler ∧ (unlink s l n).ctl = s.ctl ∧ (unlink s l n).tables = s.tables ∧
      (unlink s l n).detector = s.detector ∧ (unlink s l n).clock = s.clock ∧ (unlink s l n).follower = s.follower ∧
      (unlink s l n).sched = s.sched ∧ (unlink s l n).prot = s.prot ∧ (unlink s l n).pending = s.pending ∧
      (unlink s l n).freeCount = s.freeCount := by
  simp [unlink]

@[simp] theorem appendFree_keeps (s : State) (n : StepNo) :
    (appendFree s n).partTime = s.partTime ∧ (appendFree s n).pins = s.pins ∧ (appendFree s n).relay = s.relay ∧
      (appendFree s n).handler = s.handler ∧ (appendFree s n).ctl = s.ctl ∧ (appendFree s n).tables = s.tables ∧
      (appendFree s n).detector = s.detector ∧ (appendFree s n).clock = s.clock ∧
      (appendFree s n).follower = s.follower ∧ (appendFree s n).sched = s.sched ∧ (appendFree s n).prot = s.prot ∧
      (appendFree s n).pending = s.pending ∧ (appendFree s n).freeCount = s.freeCount := by
  simp [appendFree]

@[simp] theorem writeMusic_keeps (s : State) (n : StepNo) (m : Musical) :
    (writeMusic s n m).partTime = s.partTime ∧ (writeMusic s n m).pins = s.pins ∧ (writeMusic s n m).relay = s.relay ∧
      (writeMusic s n m).handler = s.handler ∧ (writeMusic s n m).ctl = s.ctl ∧ (writeMusic s n m).tables = s.tables ∧
      (writeMusic s n m).detector = s.detector ∧ (writeMusic s n m).clock = s.clock ∧
      (writeMusic s n m).follower = s.follower ∧ (writeMusic s n m).sched = s.sched ∧ (writeMusic s n m).prot = s.prot ∧
      (writeMusic s n m).pending = s.pending ∧ (writeMusic s n m).freeCount = s.freeCount := by
  simp [writeMusic]

@[simp] theorem writeOnset_keeps (s : State) (n : StepNo) (t : Nat) :
    (writeOnset s n t).partTime = s.partTime ∧ (writeOnset s n t).pins = s.pins ∧ (writeOnset s n t).relay = s.relay ∧
      (writeOnset s n t).handler = s.handler ∧ (writeOnset s n t).ctl = s.ctl ∧ (writeOnset s n t).tables = s.tables ∧
      (writeOnset s n t).detector = s.detector ∧ (writeOnset s n t).clock = s.clock ∧
      (writeOnset s n t).follower = s.follower ∧ (writeOnset s n t).sched = s.sched ∧ (writeOnset s n t).prot = s.prot ∧
      (writeOnset s n t).pending = s.pending ∧ (writeOnset s n t).freeCount = s.freeCount := by
  simp [writeOnset]

@[simp] theorem relink_keeps (s : State) (n : StepNo) (t : Nat) (dest : ListNo) (after_ : Option StepNo) :
    (relink s n t dest after_).partTime = s.partTime ∧ (relink s n t dest after_).pins = s.pins ∧
      (relink s n t dest after_).relay = s.relay ∧ (relink s n t dest after_).handler = s.handler ∧
      (relink s n t dest after_).ctl = s.ctl ∧ (relink s n t dest after_).tables = s.tables ∧
      (relink s n t dest after_).detector = s.detector ∧ (relink s n t dest after_).clock = s.clock ∧
      (relink s n t dest after_).follower = s.follower ∧ (relink s n t dest after_).sched = s.sched ∧
      (relink s n t dest after_).prot = s.prot ∧ (relink s n t dest after_).pending = s.pending ∧
      (relink s n t dest after_).freeCount = s.freeCount := by
  simp [relink]

@[simp] theorem withWork_keeps (s : State) (w : Option Work) :
    (withWork s w).partTime = s.partTime ∧ (withWork s w).pins = s.pins ∧ (withWork s w).relay = s.relay ∧
      (withWork s w).handler = s.handler ∧ (withWork s w).store = s.store ∧ (withWork s w).tables = s.tables ∧
      (withWork s w).detector = s.detector ∧ (withWork s w).clock = s.clock ∧ (withWork s w).follower = s.follower ∧
      (withWork s w).sched = s.sched ∧ (withWork s w).prot = s.prot ∧ (withWork s w).pending = s.pending ∧
      (withWork s w).freeCount = s.freeCount := by
  simp [withWork]

@[simp] theorem toReady_keeps (s : State) :
    (toReady s).partTime = s.partTime ∧ (toReady s).pins = s.pins ∧ (toReady s).tables = s.tables ∧
      (toReady s).detector = s.detector ∧ (toReady s).prot = s.prot ∧ (toReady s).pending = s.pending ∧
      (toReady s).freeCount = s.freeCount := by
  simp [toReady]

@[simp] theorem finishWith_keeps (s : State) (k : CmdKind) (data : List Byte) :
    (finishWith s k data).partTime = s.partTime ∧ (finishWith s k data).pins = s.pins ∧
      (finishWith s k data).relay = s.relay ∧ (finishWith s k data).handler = s.handler ∧
      (finishWith s k data).store = s.store ∧ (finishWith s k data).tables = s.tables ∧
      (finishWith s k data).detector = s.detector ∧ (finishWith s k data).clock = s.clock ∧
      (finishWith s k data).follower = s.follower ∧ (finishWith s k data).sched = s.sched ∧
      (finishWith s k data).prot = s.prot ∧ (finishWith s k data).pending = s.pending ∧
      (finishWith s k data).freeCount = s.freeCount := by
  simp [finishWith]

@[simp] theorem finishNew_keeps (s : State) :
    (finishNew s).partTime = s.partTime ∧ (finishNew s).pins = s.pins ∧ (finishNew s).tables = s.tables ∧
      (finishNew s).detector = s.detector ∧ (finishNew s).prot = s.prot ∧ (finishNew s).pending = s.pending ∧
      (finishNew s).freeCount = s.freeCount := by
  simp only [finishNew]
  (repeat' split) <;> simp

@[simp] theorem finishLink_keeps (s : State) (n : StepNo) (dest : ListNo) :
    (finishLink s n dest).partTime = s.partTime ∧ (finishLink s n dest).pins = s.pins ∧
      (finishLink s n dest).tables = s.tables ∧ (finishLink s n dest).detector = s.detector ∧
      (finishLink s n dest).prot = s.prot ∧ (finishLink s n dest).pending = s.pending ∧
      (finishLink s n dest).freeCount = s.freeCount := by
  simp only [finishLink]
  (repeat' split) <;> simp

@[simp] theorem placeCtlReply_keeps (s : State) :
    (placeCtlReply s).partTime = s.partTime ∧ (placeCtlReply s).pins = s.pins ∧ (placeCtlReply s).tables = s.tables ∧
      (placeCtlReply s).detector = s.detector ∧ (placeCtlReply s).prot = s.prot ∧ (placeCtlReply s).pending = s.pending ∧
      (placeCtlReply s).freeCount = s.freeCount := by
  simp only [placeCtlReply]
  (repeat' split) <;> simp

@[simp] theorem emptyVisit_keeps (s : State) (l : ListNo) (moved : Nat) :
    (emptyVisit s l moved).partTime = s.partTime ∧ (emptyVisit s l moved).pins = s.pins ∧
      (emptyVisit s l moved).relay = s.relay ∧ (emptyVisit s l moved).handler = s.handler ∧
      (emptyVisit s l moved).tables = s.tables ∧ (emptyVisit s l moved).detector = s.detector ∧
      (emptyVisit s l moved).clock = s.clock ∧ (emptyVisit s l moved).follower = s.follower ∧
      (emptyVisit s l moved).sched = s.sched ∧ (emptyVisit s l moved).prot = s.prot ∧
      (emptyVisit s l moved).pending = s.pending ∧ (emptyVisit s l moved).freeCount = s.freeCount := by
  simp only [emptyVisit]
  (repeat' split) <;> simp

@[simp] theorem setVisit_keeps (s : State) (n : StepNo) (m : Musical) (dest : ListNo) :
    (setVisit s n m dest).partTime = s.partTime ∧ (setVisit s n m dest).pins = s.pins ∧
      (setVisit s n m dest).relay = s.relay ∧ (setVisit s n m dest).handler = s.handler ∧
      (setVisit s n m dest).tables = s.tables ∧ (setVisit s n m dest).detector = s.detector ∧
      (setVisit s n m dest).clock = s.clock ∧ (setVisit s n m dest).follower = s.follower ∧
      (setVisit s n m dest).sched = s.sched ∧ (setVisit s n m dest).prot = s.prot ∧
      (setVisit s n m dest).pending = s.pending ∧ (setVisit s n m dest).freeCount = s.freeCount := by
  simp only [setVisit]
  (repeat' split) <;> simp

@[simp] theorem visit_keeps (s : State) :
    (visit s).partTime = s.partTime ∧ (visit s).pins = s.pins ∧ (visit s).tables = s.tables ∧
      (visit s).detector = s.detector ∧ (visit s).prot = s.prot ∧ (visit s).pending = s.pending ∧
      (visit s).freeCount = s.freeCount := by
  simp only [visit]
  (repeat' split) <;> simp

@[simp] theorem placeEarly_keeps (s : State) :
    (placeEarly s).partTime = s.partTime ∧ (placeEarly s).pins = s.pins ∧ (placeEarly s).tables = s.tables ∧
      (placeEarly s).detector = s.detector ∧ (placeEarly s).prot = s.prot ∧ (placeEarly s).pending = s.pending ∧
      (placeEarly s).freeCount = s.freeCount := by
  simp only [placeEarly]
  (repeat' split) <;> simp

@[simp] theorem begin__keeps (s : State) (tag : Byte) (cmd : CommandRecord) (w : Work) :
    (begin_ s tag cmd w).partTime = s.partTime ∧ (begin_ s tag cmd w).pins = s.pins ∧
      (begin_ s tag cmd w).relay = s.relay ∧ (begin_ s tag cmd w).handler = s.handler ∧
      (begin_ s tag cmd w).store = s.store ∧ (begin_ s tag cmd w).tables = s.tables ∧
      (begin_ s tag cmd w).detector = s.detector ∧ (begin_ s tag cmd w).clock = s.clock ∧
      (begin_ s tag cmd w).follower = s.follower ∧ (begin_ s tag cmd w).sched = s.sched ∧
      (begin_ s tag cmd w).prot = s.prot ∧ (begin_ s tag cmd w).pending = s.pending ∧
      (begin_ s tag cmd w).freeCount = s.freeCount := by
  simp [begin_]

@[simp] theorem beginNew_keeps (s : State) (tag : Byte) (n : StepNo) (dest : ListNo) (m : Musical) :
    (beginNew s tag n dest m).partTime = s.partTime ∧ (beginNew s tag n dest m).pins = s.pins ∧
      (beginNew s tag n dest m).relay = s.relay ∧ (beginNew s tag n dest m).handler = s.handler ∧
      (beginNew s tag n dest m).tables = s.tables ∧ (beginNew s tag n dest m).detector = s.detector ∧
      (beginNew s tag n dest m).clock = s.clock ∧ (beginNew s tag n dest m).follower = s.follower ∧
      (beginNew s tag n dest m).sched = s.sched ∧ (beginNew s tag n dest m).prot = s.prot ∧
      (beginNew s tag n dest m).pending = s.pending ∧ (beginNew s tag n dest m).freeCount = s.freeCount := by
  simp [beginNew]

@[simp] theorem beginSet_keeps (s : State) (tag : Byte) (n : StepNo) (m : Musical) :
    (beginSet s tag n m).partTime = s.partTime ∧ (beginSet s tag n m).pins = s.pins ∧
      (beginSet s tag n m).relay = s.relay ∧ (beginSet s tag n m).handler = s.handler ∧
      (beginSet s tag n m).store = s.store ∧ (beginSet s tag n m).tables = s.tables ∧
      (beginSet s tag n m).detector = s.detector ∧ (beginSet s tag n m).clock = s.clock ∧
      (beginSet s tag n m).follower = s.follower ∧ (beginSet s tag n m).sched = s.sched ∧
      (beginSet s tag n m).prot = s.prot ∧ (beginSet s tag n m).pending = s.pending ∧
      (beginSet s tag n m).freeCount = s.freeCount := by
  simp [beginSet]

@[simp] theorem beginMove_keeps (s : State) (tag : Byte) (n : StepNo) (dest : ListNo) :
    (beginMove s tag n dest).partTime = s.partTime ∧ (beginMove s tag n dest).pins = s.pins ∧
      (beginMove s tag n dest).relay = s.relay ∧ (beginMove s tag n dest).handler = s.handler ∧
      (beginMove s tag n dest).store = s.store ∧ (beginMove s tag n dest).tables = s.tables ∧
      (beginMove s tag n dest).detector = s.detector ∧ (beginMove s tag n dest).clock = s.clock ∧
      (beginMove s tag n dest).follower = s.follower ∧ (beginMove s tag n dest).sched = s.sched ∧
      (beginMove s tag n dest).prot = s.prot ∧ (beginMove s tag n dest).pending = s.pending ∧
      (beginMove s tag n dest).freeCount = s.freeCount := by
  simp [beginMove]

@[simp] theorem beginFree_keeps (s : State) (tag : Byte) (n : StepNo) :
    (beginFree s tag n).partTime = s.partTime ∧ (beginFree s tag n).pins = s.pins ∧ (beginFree s tag n).relay = s.relay ∧
      (beginFree s tag n).handler = s.handler ∧ (beginFree s tag n).store = s.store ∧
      (beginFree s tag n).tables = s.tables ∧ (beginFree s tag n).detector = s.detector ∧
      (beginFree s tag n).clock = s.clock ∧ (beginFree s tag n).follower = s.follower ∧
      (beginFree s tag n).sched = s.sched ∧ (beginFree s tag n).prot = s.prot ∧ (beginFree s tag n).pending = s.pending ∧
      (beginFree s tag n).freeCount = s.freeCount := by
  simp [beginFree]

@[simp] theorem beginEmpty_keeps (s : State) (tag : Byte) (l : ListNo) :
    (beginEmpty s tag l).partTime = s.partTime ∧ (beginEmpty s tag l).pins = s.pins ∧
      (beginEmpty s tag l).relay = s.relay ∧ (beginEmpty s tag l).handler = s.handler ∧
      (beginEmpty s tag l).store = s.store ∧ (beginEmpty s tag l).tables = s.tables ∧
      (beginEmpty s tag l).detector = s.detector ∧ (beginEmpty s tag l).clock = s.clock ∧
      (beginEmpty s tag l).follower = s.follower ∧ (beginEmpty s tag l).sched = s.sched ∧
      (beginEmpty s tag l).prot = s.prot ∧ (beginEmpty s tag l).pending = s.pending ∧
      (beginEmpty s tag l).freeCount = s.freeCount := by
  simp only [beginEmpty]
  (repeat' split) <;> simp

@[simp] theorem beginLength_keeps (s : State) (tag : Byte) (l : ListNo) (t : Nat) :
    (beginLength s tag l t).partTime = s.partTime ∧ (beginLength s tag l t).pins = s.pins ∧
      (beginLength s tag l t).relay = s.relay ∧ (beginLength s tag l t).handler = s.handler ∧
      (beginLength s tag l t).store = s.store ∧ (beginLength s tag l t).tables = s.tables ∧
      (beginLength s tag l t).detector = s.detector ∧ (beginLength s tag l t).clock = s.clock ∧
      (beginLength s tag l t).follower = s.follower ∧ (beginLength s tag l t).sched = s.sched ∧
      (beginLength s tag l t).prot = s.prot ∧ (beginLength s tag l t).pending = s.pending ∧
      (beginLength s tag l t).freeCount = s.freeCount := by
  simp [beginLength]

@[simp] theorem done_fst (s : State) (data : List Byte) : (done s data).1 = s := rfl
@[simp] theorem done_snd (s : State) (data : List Byte) : (done s data).2 = some (.done, data) := rfl
@[simp] theorem refuse_fst (s : State) (r : Result) : (refuse s r).1 = s := rfl
@[simp] theorem refuse_snd (s : State) (r : Result) : (refuse s r).2 = some (r, []) := rfl
@[simp] theorem handed_fst (s : State) : (handed s).1 = s := rfl
@[simp] theorem handed_snd (s : State) : (handed s).2 = none := rfl
@[simp] theorem whenReady_fst (s : State) (a : Answer) : (whenReady s a).1 = if s.ctl.phase = .ready then a.1 else s := by
  unfold whenReady; split <;> rfl

/-! ### Machine/Requests.lean -/

@[simp] theorem placeReply_keeps (s : State) (r : Reply) :
    (placeReply s r).partTime = s.partTime ∧ (placeReply s r).pins = s.pins ∧ (placeReply s r).store = s.store ∧
      (placeReply s r).ctl = s.ctl ∧ (placeReply s r).tables = s.tables ∧ (placeReply s r).detector = s.detector ∧
      (placeReply s r).clock = s.clock ∧ (placeReply s r).follower = s.follower ∧ (placeReply s r).sched = s.sched ∧
      (placeReply s r).prot = s.prot ∧ (placeReply s r).pending = s.pending ∧
      (placeReply s r).freeCount = s.freeCount := by
  simp only [placeReply]
  (repeat' split) <;> simp

@[simp] theorem answer_keeps (a : Answer) (tag code : Byte) (marks : Bool) :
    (answer a tag code marks).partTime = a.1.partTime ∧
      (answer a tag code marks).pins = a.1.pins ∧
      (answer a tag code marks).store = a.1.store ∧
      (answer a tag code marks).ctl = a.1.ctl ∧
      (answer a tag code marks).tables = a.1.tables ∧
      (answer a tag code marks).detector = a.1.detector ∧
      (answer a tag code marks).clock = a.1.clock ∧
      (answer a tag code marks).follower = a.1.follower ∧
      (answer a tag code marks).sched = a.1.sched ∧
      (answer a tag code marks).prot = a.1.prot ∧
      (answer a tag code marks).pending = a.1.pending ∧
      (answer a tag code marks).freeCount = a.1.freeCount := by
  simp only [answer]
  split <;> simp

@[simp] theorem withoutHead_keeps (s : State) :
    (withoutHead s).partTime = s.partTime ∧ (withoutHead s).pins = s.pins ∧ (withoutHead s).relay = s.relay ∧
      (withoutHead s).store = s.store ∧ (withoutHead s).ctl = s.ctl ∧ (withoutHead s).tables = s.tables ∧
      (withoutHead s).detector = s.detector ∧ (withoutHead s).clock = s.clock ∧ (withoutHead s).follower = s.follower ∧
      (withoutHead s).sched = s.sched ∧ (withoutHead s).prot = s.prot ∧ (withoutHead s).pending = s.pending ∧
      (withoutHead s).freeCount = s.freeCount := by
  simp [withoutHead]

@[simp] theorem putStop_keeps (s : State) (u1 : Byte) (args : List Byte) :
    (putStop s u1 args).1.partTime = s.partTime ∧ (putStop s u1 args).1.pins = s.pins ∧
      (putStop s u1 args).1.handler = s.handler ∧ (putStop s u1 args).1.store = s.store ∧
      (putStop s u1 args).1.ctl = s.ctl ∧ (putStop s u1 args).1.detector = s.detector ∧
      (putStop s u1 args).1.clock = s.clock ∧ (putStop s u1 args).1.follower = s.follower ∧
      (putStop s u1 args).1.prot = s.prot ∧ (putStop s u1 args).1.pending = s.pending ∧
      (putStop s u1 args).1.freeCount = s.freeCount := by
  simp only [putStop]
  (repeat' split) <;> simp

@[simp] theorem putDelay_keeps (s : State) (u1 : Byte) (args : List Byte) :
    (putDelay s u1 args).1.partTime = s.partTime ∧ (putDelay s u1 args).1.pins = s.pins ∧
      (putDelay s u1 args).1.relay = s.relay ∧ (putDelay s u1 args).1.handler = s.handler ∧
      (putDelay s u1 args).1.store = s.store ∧ (putDelay s u1 args).1.ctl = s.ctl ∧
      (putDelay s u1 args).1.detector = s.detector ∧ (putDelay s u1 args).1.clock = s.clock ∧
      (putDelay s u1 args).1.follower = s.follower ∧ (putDelay s u1 args).1.sched = s.sched ∧
      (putDelay s u1 args).1.prot = s.prot ∧ (putDelay s u1 args).1.pending = s.pending ∧
      (putDelay s u1 args).1.freeCount = s.freeCount := by
  simp only [putDelay]
  (repeat' split) <;> simp

@[simp] theorem putSet_keeps (s : State) (u1 : Byte) (args : List Byte) :
    (putSet s u1 args).1.partTime = s.partTime ∧ (putSet s u1 args).1.pins = s.pins ∧
      (putSet s u1 args).1.handler = s.handler ∧ (putSet s u1 args).1.store = s.store ∧
      (putSet s u1 args).1.ctl = s.ctl ∧ (putSet s u1 args).1.detector = s.detector ∧
      (putSet s u1 args).1.clock = s.clock ∧ (putSet s u1 args).1.follower = s.follower ∧
      (putSet s u1 args).1.prot = s.prot ∧ (putSet s u1 args).1.pending = s.pending ∧
      (putSet s u1 args).1.freeCount = s.freeCount := by
  simp only [putSet]
  (repeat' split) <;> simp

@[simp] theorem putPlan_keeps (s : State) (u1 : Byte) (args : List Byte) :
    (putPlan s u1 args).1.partTime = s.partTime ∧ (putPlan s u1 args).1.pins = s.pins ∧
      (putPlan s u1 args).1.relay = s.relay ∧ (putPlan s u1 args).1.handler = s.handler ∧
      (putPlan s u1 args).1.store = s.store ∧ (putPlan s u1 args).1.ctl = s.ctl ∧
      (putPlan s u1 args).1.detector = s.detector ∧ (putPlan s u1 args).1.clock = s.clock ∧
      (putPlan s u1 args).1.sched = s.sched ∧ (putPlan s u1 args).1.prot = s.prot ∧
      (putPlan s u1 args).1.pending = s.pending ∧ (putPlan s u1 args).1.freeCount = s.freeCount := by
  simp only [putPlan]
  (repeat' split) <;> simp

@[simp] theorem putSize_keeps (s : State) (u1 : Byte) (args : List Byte) :
    (putSize s u1 args).1.partTime = s.partTime ∧ (putSize s u1 args).1.pins = s.pins ∧
      (putSize s u1 args).1.relay = s.relay ∧ (putSize s u1 args).1.handler = s.handler ∧
      (putSize s u1 args).1.store = s.store ∧ (putSize s u1 args).1.ctl = s.ctl ∧
      (putSize s u1 args).1.detector = s.detector ∧ (putSize s u1 args).1.clock = s.clock ∧
      (putSize s u1 args).1.sched = s.sched ∧ (putSize s u1 args).1.prot = s.prot ∧
      (putSize s u1 args).1.pending = s.pending ∧ (putSize s u1 args).1.freeCount = s.freeCount := by
  simp only [putSize]
  (repeat' split) <;> simp

@[simp] theorem putFollow_keeps (s : State) (u1 : Byte) (args : List Byte) :
    (putFollow s u1 args).1.partTime = s.partTime ∧ (putFollow s u1 args).1.pins = s.pins ∧
      (putFollow s u1 args).1.store = s.store ∧ (putFollow s u1 args).1.ctl = s.ctl ∧
      (putFollow s u1 args).1.detector = s.detector ∧ (putFollow s u1 args).1.prot = s.prot ∧
      (putFollow s u1 args).1.pending = s.pending ∧ (putFollow s u1 args).1.freeCount = s.freeCount := by
  simp only [putFollow]
  (repeat' split) <;> simp

@[simp] theorem putPickup_keeps (s : State) (u1 : Byte) (args : List Byte) :
    (putPickup s u1 args).1.partTime = s.partTime ∧ (putPickup s u1 args).1.pins = s.pins ∧
      (putPickup s u1 args).1.relay = s.relay ∧ (putPickup s u1 args).1.handler = s.handler ∧
      (putPickup s u1 args).1.store = s.store ∧ (putPickup s u1 args).1.ctl = s.ctl ∧
      (putPickup s u1 args).1.detector = s.detector ∧ (putPickup s u1 args).1.clock = s.clock ∧
      (putPickup s u1 args).1.follower = s.follower ∧ (putPickup s u1 args).1.sched = s.sched ∧
      (putPickup s u1 args).1.prot = s.prot ∧ (putPickup s u1 args).1.pending = s.pending ∧
      (putPickup s u1 args).1.freeCount = s.freeCount := by
  simp [putPickup]

@[simp] theorem putSound_keeps (s : State) (u1 : Byte) (args : List Byte) :
    (putSound s u1 args).1.partTime = s.partTime ∧ (putSound s u1 args).1.pins = s.pins ∧
      (putSound s u1 args).1.relay = s.relay ∧ (putSound s u1 args).1.handler = s.handler ∧
      (putSound s u1 args).1.store = s.store ∧ (putSound s u1 args).1.ctl = s.ctl ∧
      (putSound s u1 args).1.detector = s.detector ∧ (putSound s u1 args).1.clock = s.clock ∧
      (putSound s u1 args).1.follower = s.follower ∧ (putSound s u1 args).1.sched = s.sched ∧
      (putSound s u1 args).1.prot = s.prot ∧ (putSound s u1 args).1.pending = s.pending ∧
      (putSound s u1 args).1.freeCount = s.freeCount := by
  simp [putSound]

@[simp] theorem newStep_keeps (s : State) (tag : Byte) (args : List Byte) :
    (newStep s tag args).1.partTime = s.partTime ∧ (newStep s tag args).1.pins = s.pins ∧
      (newStep s tag args).1.relay = s.relay ∧ (newStep s tag args).1.handler = s.handler ∧
      (newStep s tag args).1.tables = s.tables ∧ (newStep s tag args).1.detector = s.detector ∧
      (newStep s tag args).1.clock = s.clock ∧ (newStep s tag args).1.follower = s.follower ∧
      (newStep s tag args).1.sched = s.sched ∧ (newStep s tag args).1.prot = s.prot ∧
      (newStep s tag args).1.pending = s.pending ∧ (newStep s tag args).1.freeCount = s.freeCount := by
  simp only [newStep, whenReady]
  (repeat' split) <;> simp

@[simp] theorem setStep_keeps (s : State) (tag : Byte) (args : List Byte) :
    (setStep s tag args).1.partTime = s.partTime ∧ (setStep s tag args).1.pins = s.pins ∧
      (setStep s tag args).1.relay = s.relay ∧ (setStep s tag args).1.handler = s.handler ∧
      (setStep s tag args).1.store = s.store ∧ (setStep s tag args).1.tables = s.tables ∧
      (setStep s tag args).1.detector = s.detector ∧ (setStep s tag args).1.clock = s.clock ∧
      (setStep s tag args).1.follower = s.follower ∧ (setStep s tag args).1.sched = s.sched ∧
      (setStep s tag args).1.prot = s.prot ∧ (setStep s tag args).1.pending = s.pending ∧
      (setStep s tag args).1.freeCount = s.freeCount := by
  simp only [setStep, whenReady]
  (repeat' split) <;> simp

@[simp] theorem moveStep_keeps (s : State) (tag : Byte) (args : List Byte) :
    (moveStep s tag args).1.partTime = s.partTime ∧ (moveStep s tag args).1.pins = s.pins ∧
      (moveStep s tag args).1.relay = s.relay ∧ (moveStep s tag args).1.handler = s.handler ∧
      (moveStep s tag args).1.store = s.store ∧ (moveStep s tag args).1.tables = s.tables ∧
      (moveStep s tag args).1.detector = s.detector ∧ (moveStep s tag args).1.clock = s.clock ∧
      (moveStep s tag args).1.follower = s.follower ∧ (moveStep s tag args).1.sched = s.sched ∧
      (moveStep s tag args).1.prot = s.prot ∧ (moveStep s tag args).1.pending = s.pending ∧
      (moveStep s tag args).1.freeCount = s.freeCount := by
  simp only [moveStep, whenReady]
  (repeat' split) <;> simp

@[simp] theorem freeStep_keeps (s : State) (tag : Byte) (args : List Byte) :
    (freeStep s tag args).1.partTime = s.partTime ∧ (freeStep s tag args).1.pins = s.pins ∧
      (freeStep s tag args).1.relay = s.relay ∧ (freeStep s tag args).1.handler = s.handler ∧
      (freeStep s tag args).1.store = s.store ∧ (freeStep s tag args).1.tables = s.tables ∧
      (freeStep s tag args).1.detector = s.detector ∧ (freeStep s tag args).1.clock = s.clock ∧
      (freeStep s tag args).1.follower = s.follower ∧ (freeStep s tag args).1.sched = s.sched ∧
      (freeStep s tag args).1.prot = s.prot ∧ (freeStep s tag args).1.pending = s.pending ∧
      (freeStep s tag args).1.freeCount = s.freeCount := by
  simp only [freeStep, whenReady]
  (repeat' split) <;> simp

@[simp] theorem emptyList_keeps (s : State) (tag : Byte) (args : List Byte) :
    (emptyList s tag args).1.partTime = s.partTime ∧ (emptyList s tag args).1.pins = s.pins ∧
      (emptyList s tag args).1.relay = s.relay ∧ (emptyList s tag args).1.handler = s.handler ∧
      (emptyList s tag args).1.store = s.store ∧ (emptyList s tag args).1.tables = s.tables ∧
      (emptyList s tag args).1.detector = s.detector ∧ (emptyList s tag args).1.clock = s.clock ∧
      (emptyList s tag args).1.follower = s.follower ∧ (emptyList s tag args).1.sched = s.sched ∧
      (emptyList s tag args).1.prot = s.prot ∧ (emptyList s tag args).1.pending = s.pending ∧
      (emptyList s tag args).1.freeCount = s.freeCount := by
  simp only [emptyList, whenReady]
  (repeat' split) <;> simp

@[simp] theorem setLength_keeps (s : State) (tag : Byte) (args : List Byte) :
    (setLength s tag args).1.partTime = s.partTime ∧ (setLength s tag args).1.pins = s.pins ∧
      (setLength s tag args).1.relay = s.relay ∧ (setLength s tag args).1.handler = s.handler ∧
      (setLength s tag args).1.store = s.store ∧ (setLength s tag args).1.tables = s.tables ∧
      (setLength s tag args).1.detector = s.detector ∧ (setLength s tag args).1.clock = s.clock ∧
      (setLength s tag args).1.follower = s.follower ∧ (setLength s tag args).1.sched = s.sched ∧
      (setLength s tag args).1.prot = s.prot ∧ (setLength s tag args).1.pending = s.pending ∧
      (setLength s tag args).1.freeCount = s.freeCount := by
  simp only [setLength, whenReady]
  (repeat' split) <;> simp

@[simp] theorem modeRequest_keeps (s : State) (u1 : Byte) (args : List Byte) :
    (modeRequest s u1 args).1.partTime = s.partTime ∧ (modeRequest s u1 args).1.pins = s.pins ∧
      (modeRequest s u1 args).1.store = s.store ∧ (modeRequest s u1 args).1.ctl = s.ctl ∧
      (modeRequest s u1 args).1.tables = s.tables ∧ (modeRequest s u1 args).1.detector = s.detector ∧
      (modeRequest s u1 args).1.prot = s.prot ∧ (modeRequest s u1 args).1.pending = s.pending ∧
      (modeRequest s u1 args).1.freeCount = s.freeCount := by
  simp only [modeRequest]
  (repeat' split) <;> simp

@[simp] theorem startRequest_keeps (s : State) (u1 : Byte) (args : List Byte) :
    (startRequest s u1 args).1.partTime = s.partTime ∧ (startRequest s u1 args).1.pins = s.pins ∧
      (startRequest s u1 args).1.store = s.store ∧ (startRequest s u1 args).1.ctl = s.ctl ∧
      (startRequest s u1 args).1.tables = s.tables ∧ (startRequest s u1 args).1.detector = s.detector ∧
      (startRequest s u1 args).1.prot = s.prot ∧ (startRequest s u1 args).1.pending = s.pending ∧
      (startRequest s u1 args).1.freeCount = s.freeCount := by
  simp only [startRequest]
  (repeat' split) <;> simp

@[simp] theorem finishRequest_keeps (s : State) (u1 : Byte) (u2 : List Byte) :
    (finishRequest s u1 u2).1.partTime = s.partTime ∧ (finishRequest s u1 u2).1.pins = s.pins ∧
      (finishRequest s u1 u2).1.relay = s.relay ∧ (finishRequest s u1 u2).1.handler = s.handler ∧
      (finishRequest s u1 u2).1.store = s.store ∧ (finishRequest s u1 u2).1.ctl = s.ctl ∧
      (finishRequest s u1 u2).1.tables = s.tables ∧ (finishRequest s u1 u2).1.detector = s.detector ∧
      (finishRequest s u1 u2).1.clock = s.clock ∧ (finishRequest s u1 u2).1.sched = s.sched ∧
      (finishRequest s u1 u2).1.prot = s.prot ∧ (finishRequest s u1 u2).1.pending = s.pending ∧
      (finishRequest s u1 u2).1.freeCount = s.freeCount := by
  simp [finishRequest]

@[simp] theorem haltRequest_keeps (s : State) (u1 : Byte) (u2 : List Byte) :
    (haltRequest s u1 u2).1.partTime = s.partTime ∧ (haltRequest s u1 u2).1.pins = s.pins ∧
      (haltRequest s u1 u2).1.store = s.store ∧
      (haltRequest s u1 u2).1.ctl = s.ctl ∧ (haltRequest s u1 u2).1.tables = s.tables ∧
      (haltRequest s u1 u2).1.detector = s.detector ∧ (haltRequest s u1 u2).1.prot = s.prot ∧
      (haltRequest s u1 u2).1.pending = s.pending ∧ (haltRequest s u1 u2).1.freeCount = s.freeCount := by
  simp [haltRequest]

@[simp] theorem releasePlay_keeps (s : State) :
    (releasePlay s).partTime = s.partTime ∧ (releasePlay s).pins = s.pins ∧ (releasePlay s).store = s.store ∧
      (releasePlay s).ctl = s.ctl ∧ (releasePlay s).tables = s.tables ∧ (releasePlay s).detector = s.detector ∧
      (releasePlay s).prot = s.prot ∧ (releasePlay s).pending = s.pending ∧ (releasePlay s).freeCount = s.freeCount := by
  simp only [releasePlay]
  (repeat' split) <;> simp

@[simp] theorem releaseRequest_keeps (s : State) (u1 : Byte) (u2 : List Byte) :
    (releaseRequest s u1 u2).1.partTime = s.partTime ∧ (releaseRequest s u1 u2).1.pins = s.pins ∧
      (releaseRequest s u1 u2).1.store = s.store ∧ (releaseRequest s u1 u2).1.ctl = s.ctl ∧
      (releaseRequest s u1 u2).1.tables = s.tables ∧ (releaseRequest s u1 u2).1.detector = s.detector ∧
      (releaseRequest s u1 u2).1.prot = s.prot ∧ (releaseRequest s u1 u2).1.pending = s.pending ∧
      (releaseRequest s u1 u2).1.freeCount = s.freeCount := by
  simp [releaseRequest]

@[simp] theorem tempoAtOnce_keeps (s : State) (p : Nat) :
    (tempoAtOnce s p).1.partTime = s.partTime ∧ (tempoAtOnce s p).1.pins = s.pins ∧ (tempoAtOnce s p).1.store = s.store ∧
      (tempoAtOnce s p).1.ctl = s.ctl ∧ (tempoAtOnce s p).1.tables = s.tables ∧
      (tempoAtOnce s p).1.detector = s.detector ∧ (tempoAtOnce s p).1.prot = s.prot ∧
      (tempoAtOnce s p).1.pending = s.pending ∧ (tempoAtOnce s p).1.freeCount = s.freeCount := by
  simp [tempoAtOnce]

@[simp] theorem tempoNowRequest_keeps (s : State) (u1 : Byte) (args : List Byte) :
    (tempoNowRequest s u1 args).1.partTime = s.partTime ∧ (tempoNowRequest s u1 args).1.pins = s.pins ∧
      (tempoNowRequest s u1 args).1.store = s.store ∧ (tempoNowRequest s u1 args).1.ctl = s.ctl ∧
      (tempoNowRequest s u1 args).1.tables = s.tables ∧ (tempoNowRequest s u1 args).1.detector = s.detector ∧
      (tempoNowRequest s u1 args).1.prot = s.prot ∧ (tempoNowRequest s u1 args).1.pending = s.pending ∧
      (tempoNowRequest s u1 args).1.freeCount = s.freeCount := by
  simp only [tempoNowRequest]
  (repeat' split) <;> simp

@[simp] theorem tempoNextRequest_keeps (s : State) (u1 : Byte) (args : List Byte) :
    (tempoNextRequest s u1 args).1.partTime = s.partTime ∧ (tempoNextRequest s u1 args).1.pins = s.pins ∧
      (tempoNextRequest s u1 args).1.store = s.store ∧ (tempoNextRequest s u1 args).1.ctl = s.ctl ∧
      (tempoNextRequest s u1 args).1.tables = s.tables ∧ (tempoNextRequest s u1 args).1.detector = s.detector ∧
      (tempoNextRequest s u1 args).1.prot = s.prot ∧ (tempoNextRequest s u1 args).1.pending = s.pending ∧
      (tempoNextRequest s u1 args).1.freeCount = s.freeCount := by
  simp only [tempoNextRequest]
  (repeat' split) <;> simp

@[simp] theorem regNowRequest_keeps (s : State) (u1 : Byte) (args : List Byte) :
    (regNowRequest s u1 args).1.partTime = s.partTime ∧ (regNowRequest s u1 args).1.pins = s.pins ∧
      (regNowRequest s u1 args).1.handler = s.handler ∧ (regNowRequest s u1 args).1.store = s.store ∧
      (regNowRequest s u1 args).1.ctl = s.ctl ∧ (regNowRequest s u1 args).1.tables = s.tables ∧
      (regNowRequest s u1 args).1.detector = s.detector ∧ (regNowRequest s u1 args).1.clock = s.clock ∧
      (regNowRequest s u1 args).1.follower = s.follower ∧ (regNowRequest s u1 args).1.prot = s.prot ∧
      (regNowRequest s u1 args).1.pending = s.pending ∧ (regNowRequest s u1 args).1.freeCount = s.freeCount := by
  simp only [regNowRequest]
  (repeat' split) <;> simp

@[simp] theorem rateRequest_keeps (s : State) (u1 : Byte) (args : List Byte) :
    (rateRequest s u1 args).1.partTime = s.partTime ∧ (rateRequest s u1 args).1.pins = s.pins ∧
      (rateRequest s u1 args).1.relay = s.relay ∧ (rateRequest s u1 args).1.handler = s.handler ∧
      (rateRequest s u1 args).1.store = s.store ∧ (rateRequest s u1 args).1.ctl = s.ctl ∧
      (rateRequest s u1 args).1.tables = s.tables ∧ (rateRequest s u1 args).1.detector = s.detector ∧
      (rateRequest s u1 args).1.follower = s.follower ∧ (rateRequest s u1 args).1.sched = s.sched ∧
      (rateRequest s u1 args).1.prot = s.prot ∧ (rateRequest s u1 args).1.pending = s.pending ∧
      (rateRequest s u1 args).1.freeCount = s.freeCount := by
  simp [rateRequest]

@[simp] theorem faultClearRequest_keeps (s : State) (u1 : Byte) (args : List Byte) :
    (faultClearRequest s u1 args).1.partTime = s.partTime ∧ (faultClearRequest s u1 args).1.pins = s.pins ∧
      (faultClearRequest s u1 args).1.store = s.store ∧ (faultClearRequest s u1 args).1.ctl = s.ctl ∧
      (faultClearRequest s u1 args).1.tables = s.tables ∧ (faultClearRequest s u1 args).1.detector = s.detector ∧
      (faultClearRequest s u1 args).1.clock = s.clock ∧ (faultClearRequest s u1 args).1.follower = s.follower ∧
      (faultClearRequest s u1 args).1.pending = s.pending ∧ (faultClearRequest s u1 args).1.freeCount = s.freeCount := by
  simp only [faultClearRequest]
  (repeat' split) <;> simp

@[simp] theorem restartPlay_keeps (s : State) :
    (restartPlay s).partTime = s.partTime ∧ (restartPlay s).pins = s.pins ∧ (restartPlay s).store = s.store ∧
      (restartPlay s).ctl = s.ctl ∧ (restartPlay s).tables = s.tables ∧ (restartPlay s).prot = s.prot ∧
      (restartPlay s).pending = s.pending ∧ (restartPlay s).freeCount = s.freeCount := by
  simp [restartPlay]

@[simp] theorem restartRequest_keeps (s : State) (u1 : Byte) (u2 : List Byte) :
    (restartRequest s u1 u2).1.partTime = s.partTime ∧ (restartRequest s u1 u2).1.pins = s.pins ∧
      (restartRequest s u1 u2).1.store = s.store ∧ (restartRequest s u1 u2).1.ctl = s.ctl ∧
      (restartRequest s u1 u2).1.tables = s.tables ∧ (restartRequest s u1 u2).1.prot = s.prot ∧
      (restartRequest s u1 u2).1.pending = s.pending ∧ (restartRequest s u1 u2).1.freeCount = s.freeCount := by
  simp [restartRequest]

@[simp] theorem resetRequest_keeps (s : State) (u1 : Byte) (u2 : List Byte) :
    (resetRequest s u1 u2).1.partTime = s.partTime ∧ (resetRequest s u1 u2).1.pins = s.pins ∧
      (resetRequest s u1 u2).1.relay = s.relay ∧ (resetRequest s u1 u2).1.store = s.store ∧
      (resetRequest s u1 u2).1.ctl = s.ctl ∧ (resetRequest s u1 u2).1.tables = s.tables ∧
      (resetRequest s u1 u2).1.detector = s.detector ∧ (resetRequest s u1 u2).1.clock = s.clock ∧
      (resetRequest s u1 u2).1.follower = s.follower ∧ (resetRequest s u1 u2).1.sched = s.sched ∧
      (resetRequest s u1 u2).1.prot = s.prot ∧ (resetRequest s u1 u2).1.pending = s.pending ∧
      (resetRequest s u1 u2).1.freeCount = s.freeCount := by
  simp [resetRequest]

@[simp] theorem countFree_keeps (s : State) (p : List Byte) :
    (countFree s p).partTime = s.partTime ∧ (countFree s p).pins = s.pins ∧ (countFree s p).relay = s.relay ∧
      (countFree s p).handler = s.handler ∧ (countFree s p).store = s.store ∧ (countFree s p).ctl = s.ctl ∧
      (countFree s p).tables = s.tables ∧ (countFree s p).detector = s.detector ∧ (countFree s p).clock = s.clock ∧
      (countFree s p).follower = s.follower ∧ (countFree s p).sched = s.sched ∧ (countFree s p).prot = s.prot ∧
      (countFree s p).pending = s.pending := by
  simp only [countFree]
  (repeat' split) <;> simp

@[simp] theorem takeUnknown_keeps (s : State) :
    (takeUnknown s).partTime = s.partTime ∧ (takeUnknown s).pins = s.pins ∧ (takeUnknown s).store = s.store ∧
      (takeUnknown s).ctl = s.ctl ∧ (takeUnknown s).tables = s.tables ∧ (takeUnknown s).detector = s.detector ∧
      (takeUnknown s).clock = s.clock ∧ (takeUnknown s).follower = s.follower ∧ (takeUnknown s).sched = s.sched ∧
      (takeUnknown s).prot = s.prot ∧ (takeUnknown s).pending = s.pending := by
  simp only [takeUnknown]
  (repeat' split) <;> simp

end Machine

end Sys2Proof
end

