-- ==== Sys2Proof/Laws/Requests.lean ====
section
/-! SUPPORT. The taking of a request, once: what `take` answers when the request at the head of the buffer may be taken, how an answer
is placed, and how the bytes that name a thing read. -/

namespace Sys2Proof

namespace Machine

/-- A request that may be taken is taken by its row. -/
theorem take_of_taking {s : State} {tag code : Byte} {args : List Byte} (h : Taking s tag code args) (row : Instr)
    (act : State → Byte → List Byte → Answer) (marks : State → Bool) (hr : requestRow (tag :: code :: args) = row) :
    take s row act marks = answer (act (withoutHead s) tag args) tag code (marks s) := by
  obtain ⟨h1, h2, h3, h4⟩ := h
  unfold take
  cases hb : s.handler.buffer with
  | nil => simp [hb] at h1
  | cons p r =>
    rw [hb] at h1
    obtain rfl : p = tag :: code :: args := by simpa using h1
    simp [handlerFree, h2, h3, h4, hr]

/-- A row whose request does not stand at the head of the buffer changes nothing (note 1). -/
theorem take_of_other {s : State} {row : Instr} (act : State → Byte → List Byte → Answer) (marks : State → Bool)
    (h : ∀ p, s.handler.buffer.head? = some p → requestRow p ≠ row) : take s row act marks = s := by
  unfold take
  split
  · rename_i tag code args waiting hb
    exact if_neg fun hr => h _ (by rw [hb]; rfl) hr.2
  · rfl

/-- DONE is answered by a reply of the handler. -/
theorem answer_done (s : State) (data : List Byte) (tag code : Byte) :
    answer (done s data) tag code false = replied s tag code .done data := rfl

/-- A refusal changes nothing but the buffer and the place of the reply. -/
theorem answer_refuse (s : State) (r : Result) (tag code : Byte) :
    answer (refuse (withoutHead s) r) tag code false = refused s tag code r := rfl

/-- A command handed to the list controller gets no reply of the handler (R18). -/
theorem answer_handed (s : State) (tag code : Byte) (marks : Bool) : answer (handed s) tag code marks = s := rfl

@[simp] theorem byte_toNat (n : Nat) : (byte n).toNat = n % 256 := by simp [byte]

@[simp] theorem out8_eq (n : Nat) : out8 n = [byte n] := rfl

@[simp] theorem byteAt_cons_zero (b : Byte) (bs : List Byte) : byteAt (b :: bs) 0 = b.toNat := rfl

@[simp] theorem byteAt_cons_succ (b : Byte) (bs : List Byte) (i : Nat) : byteAt (b :: bs) (i + 1) = byteAt bs i := rfl

/-- The byte of a division names it. -/
@[simp] theorem Division.ofNum?_num (d : Division) : Division.ofNum? (d.num % 256) = some d := by cases d <;> rfl

/-- A byte of 4 or more names no division. -/
theorem Division.ofNum?_none {n : Nat} (h : 4 ≤ n) : Division.ofNum? n = none := by
  match n, h with
  | n + 4, _ => rfl

/-- The byte of a stop names it. -/
@[simp] theorem stopNo?_val (n : Fin 48) : stopNo? (n.val % 256) = some n := by
  have h : n.val % 256 = n.val := Nat.mod_eq_of_lt (by omega)
  simp [stopNo?, h]

/-- A byte of 48 or more names no stop. -/
theorem stopNo?_none {n : Nat} (h : 48 ≤ n) : stopNo? n = none := by
  simp [stopNo?]; omega

end Machine

end Sys2Proof
end

