-- ==== Sys2Proof/Laws/Shared.lean ====
section
/-! SUPPORT. For each shared operation, once, what it does to the blocks it touches (Laws/Frames.lean says which it leaves): alerts,
markers, stops, queues, step records, purges, the clock's re-anchor and its stop, the telling of a stop point, frames. -/

namespace Sys2Proof

namespace Machine

/-! ### Alerts (R185) -/

/-- A posted alert enters the tail, or is discarded when 16 wait. -/
theorem postAlert_cases (s : State) (a : Alert) :
    (s.handler.alerts.length < 16 ∧
        postAlert s a = s.withHandler { s.handler with alerts := s.handler.alerts ++ [a] }) ∨
      (16 ≤ s.handler.alerts.length ∧ postAlert s a = loseAlert s) := by
  unfold postAlert Config.alertMax
  split
  · exact .inl ⟨‹_›, rfl⟩
  · exact .inr ⟨by omega, rfl⟩

theorem postAlert_of_room {s : State} (h : s.handler.alerts.length < 16) (a : Alert) :
    postAlert s a = s.withHandler { s.handler with alerts := s.handler.alerts ++ [a] } := if_pos h

@[simp] theorem loseAlert_alerts (s : State) : (loseAlert s).handler.alerts = s.handler.alerts := rfl

@[simp] theorem loseAlert_buffer (s : State) : (loseAlert s).handler.buffer = s.handler.buffer := rfl

@[simp] theorem loseAlert_downQueue (s : State) : (loseAlert s).relay.downQueue = s.relay.downQueue := rfl

@[simp] theorem loseAlert_forward (s : State) : (loseAlert s).relay.forward = s.relay.forward := rfl

@[simp] theorem postAlert_buffer (s : State) (a : Alert) : (postAlert s a).handler.buffer = s.handler.buffer := by
  unfold postAlert; split <;> rfl

@[simp] theorem postAlert_downQueue (s : State) (a : Alert) : (postAlert s a).relay.downQueue = s.relay.downQueue := by
  unfold postAlert; split <;> rfl

@[simp] theorem postAlert_forward (s : State) (a : Alert) : (postAlert s a).relay.forward = s.relay.forward := by
  unfold postAlert; split <;> rfl

/-- The alert queue never holds more than 16. -/
theorem postAlert_length_le {s : State} (h : s.handler.alerts.length ≤ 16) (a : Alert) :
    (postAlert s a).handler.alerts.length ≤ 16 := by
  rcases postAlert_cases s a with ⟨h1, h2⟩ | ⟨h1, h2⟩
  · rw [h2]; simp; omega
  · rw [h2]; simpa using h

/-- No alert leaves the queue by a posting. -/
theorem mem_postAlert {s : State} {x : Alert} (h : x ∈ s.handler.alerts) (a : Alert) : x ∈ (postAlert s a).handler.alerts := by
  rcases postAlert_cases s a with ⟨h1, h2⟩ | ⟨h1, h2⟩ <;> rw [h2] <;> simp [h]

/-! ### Markers (R163) -/

/-- A frame marked due stands in the queue. -/
@[simp] theorem markDue_mem (s : State) (m : Marker) : .marker m ∈ (markDue s m).relay.downQueue := by
  unfold markDue
  split
  · rename_i h; simpa using h
  · simp

/-- A marking takes nothing from the queue. -/
theorem mem_markDue {s : State} {x : DownItem} (h : x ∈ s.relay.downQueue) (m : Marker) :
    x ∈ (markDue s m).relay.downQueue := by
  unfold markDue; split <;> simp [h]

/-- A marker in the queue absorbs the marking. -/
theorem markDue_of_mem {s : State} {m : Marker} (h : .marker m ∈ s.relay.downQueue) : markDue s m = s := by
  unfold markDue; rw [if_pos (by simpa using h)]

/-- The relay after a marking. -/
theorem markDue_relay (s : State) (m : Marker) :
    (markDue s m).relay = { s.relay with
      downQueue := if .marker m ∈ s.relay.downQueue then s.relay.downQueue else s.relay.downQueue ++ [.marker m] } := by
  unfold markDue
  by_cases h : DownItem.marker m ∈ s.relay.downQueue
  · rw [if_pos (by simpa using h), if_pos h]
  · rw [if_neg (by simpa using h), if_neg h]; rfl

theorem mem_markersOf {m : Marker} {q : List DownItem} : m ∈ markersOf q ↔ .marker m ∈ q := by
  unfold markersOf
  rw [List.mem_filterMap]
  constructor
  · rintro ⟨x, hx, h⟩
    cases x with
    | marker m' => simp at h; subst h; exact hx
    | pass b => simp at h
  · intro h; exact ⟨_, h, rfl⟩

/-- A marking keeps each marker single and no pass-through frame comes in. -/
theorem markDue_fits {s : State} (h : (markersOf s.relay.downQueue).Nodup) (m : Marker) :
    (markersOf (markDue s m).relay.downQueue).Nodup ∧
      passCount (markDue s m).relay.downQueue = passCount s.relay.downQueue := by
  rw [markDue_relay]
  by_cases hm : DownItem.marker m ∈ s.relay.downQueue
  · simp [hm, h]
  · have hm' : m ∉ markersOf s.relay.downQueue := fun e => hm (mem_markersOf.mp e)
    constructor
    · simp only [hm, if_false]
      rw [show markersOf (s.relay.downQueue ++ [.marker m]) = (markersOf s.relay.downQueue).concat m by simp [markersOf]]
      exact h.concat hm'
    · simp [hm, passCount]

/-! ### Stops and the active registration (R46 to R48, R54) -/

@[simp] theorem reformStops_stopImage (s : State) : (reformStops s).sched.stopImage = formedImage s := by
  simp only [reformStops]; split <;> simp

/-- A re-forming touches no other part of the scheduler. -/
@[simp] theorem reformStops_sched (s : State) : (reformStops s).sched = { s.sched with stopImage := formedImage s } := by
  simp only [reformStops]; split <;> simp

/-- The stop frame is marked due when the image changed. -/
theorem reformStops_marks {s : State} (h : formedImage s ≠ s.sched.stopImage) :
    .marker .stops ∈ (reformStops s).relay.downQueue := by
  unfold reformStops; simp [h]

theorem mem_reformStops {s : State} {x : DownItem} (h : x ∈ s.relay.downQueue) : x ∈ (reformStops s).relay.downQueue := by
  simp only [reformStops]
  split
  · exact h
  · exact mem_markDue (by exact h) _

/-- The image depends on the protection unit, the stop table, the sets and the active registration alone. -/
theorem formedImage_congr {s t : State} (h1 : t.prot = s.prot) (h2 : t.tables = s.tables) (h3 : t.sched.active = s.sched.active) :
    formedImage t = formedImage s := by
  have hl : ∀ d, latched t d = latched s d := fun d => by simp [latched, h1]
  have hw : ∀ n, withdrawn t n = withdrawn s n := fun n => by simp [withdrawn, stopEntry?, h1, h2, hl]
  simp [formedImage, lessWithdrawn, activeSet, h2, h3, hw]

/-- After a re-forming the image is as formed. -/
theorem stopsFormed_reformStops (s : State) : StopsFormed (reformStops s) := by
  unfold StopsFormed
  rw [reformStops_stopImage]
  exact (formedImage_congr (by simp) (by simp) (by simp)).symm

@[simp] theorem setActive_sched (s : State) (k : Option SetNo) :
    (setActive s k).sched =
      { s.sched with active := k, stopImage := formedImage (s.withSched { s.sched with active := k }) } := by
  simp [setActive]

theorem stopsFormed_setActive (s : State) (k : Option SetNo) : StopsFormed (setActive s k) := stopsFormed_reformStops _

/-! ### The waiting switches (R143) -/

/-- Between `s` and `t` the scheduler differs in its registration alone: the active set, the switch made, the stop image. -/
def SameActions (s t : State) : Prop :=
  t.sched = { s.sched with active := t.sched.active, switched := t.sched.switched, stopImage := t.sched.stopImage }

theorem makeSwitch_actions (s : State) (i : EntryNo) : SameActions s (makeSwitch s i) := by
  unfold makeSwitch; split <;> simp [SameActions]

theorem switchIfFinished_actions (s : State) (i : EntryNo) : SameActions s (switchIfFinished s i) := by
  unfold switchIfFinished
  split
  · split
    · exact makeSwitch_actions s i
    · simp [SameActions]
  · simp [SameActions]

theorem SameActions.trans {s t u : State} (h1 : SameActions s t) (h2 : SameActions t u) : SameActions s u := by
  unfold SameActions at *
  rw [h2, h1]

theorem SameActions.refl (s : State) : SameActions s s := rfl

/-- The switches that wait move no action, count or walk. -/
theorem waitingSwitches_actions (s : State) : SameActions s (waitingSwitches s) := by
  have h : ∀ u, SameActions s u → SameActions s (match engagedIndex u with
      | some j => switchIfFinished u j
      | none => u) := fun u hu => by
    split
    · exact hu.trans (switchIfFinished_actions u _)
    · exact hu
  refine h _ ?_
  split
  · exact switchIfFinished_actions s _
  · exact .refl s

/-- Where a FINISH has cancelled the current entry and none is engaged, no switch waits (R47). -/
theorem waitingSwitches_of_cancelled {s : State} (h : cancelled s = true) (hn : engagedIndex s = none) :
    waitingSwitches s = s := by
  simp [waitingSwitches, h, hn]

/-! ### Queues (R129) -/

@[simp] theorem queue_withQueue_same (s : State) (d : Division) (q : List Action) : queue (withQueue s d q) d = q := by
  simp [queue, withQueue]

theorem queue_withQueue (s : State) (d e : Division) (q : List Action) :
    queue (withQueue s d q) e = if e = d then q else queue s e := by
  simp [queue, withQueue, PerDiv.get_set]

/-- A placed action is added to the queue and nothing leaves it. -/
theorem insertAction_perm (q : List Action) (a : Action) : (insertAction q a).Perm (a :: q) := by
  unfold insertAction
  refine List.perm_middle.trans ?_
  rw [List.takeWhile_append_dropWhile]

@[simp] theorem insertAction_length (q : List Action) (a : Action) : (insertAction q a).length = q.length + 1 :=
  (insertAction_perm q a).length_eq

/-- A release goes before a press at the same position (R129). -/
def kindRank : ActKind → Int
  | .release => 0
  | .press => 1

theorem kindRank_range (k : ActKind) : 0 ≤ kindRank k ∧ kindRank k ≤ 1 := by cases k <;> decide

/-- The place of an action in the order of R129 as one number. -/
def issueRank (a : Action) : Int := 2 * a.pos + kindRank a.kind

theorem rank_le_iff {x y p q : Int} (hp : 0 ≤ p ∧ p ≤ 1) (hq : 0 ≤ q ∧ q ≤ 1) :
    x < y ∨ (x = y ∧ p ≤ q) ↔ 2 * x + p ≤ 2 * y + q := by omega

theorem inOrder_iff_rank {a b : Action} : InOrder a b ↔ issueRank a ≤ issueRank b := by
  refine Iff.trans ?_ (rank_le_iff (kindRank_range a.kind) (kindRank_range b.kind))
  unfold InOrder
  cases a.kind <;> cases b.kind <;> simp [kindRank]

theorem standsBefore_iff_rank {a b : Action} : standsBefore a b = true ↔ issueRank b ≤ issueRank a := by
  refine Iff.trans ?_ (rank_le_iff (kindRank_range b.kind) (kindRank_range a.kind))
  unfold standsBefore
  cases a.kind <;> cases b.kind <;> simp [kindRank]

theorem standsBefore_inOrder {a b : Action} (h : standsBefore a b = true) : InOrder b a :=
  inOrder_iff_rank.mpr (standsBefore_iff_rank.mp h)

theorem not_standsBefore_inOrder {a b : Action} (h : standsBefore a b = false) : InOrder a b :=
  inOrder_iff_rank.mpr (le_of_not_ge fun hr => by simp [standsBefore_iff_rank.mpr hr] at h)

theorem InOrder.trans {a b c : Action} (h1 : InOrder a b) (h2 : InOrder b c) : InOrder a c :=
  inOrder_iff_rank.mpr ((inOrder_iff_rank.mp h1).trans (inOrder_iff_rank.mp h2))

/-- A placed action takes its place in the order of R129. -/
theorem insertAction_ordered {q : List Action} (h : q.Pairwise InOrder) (a : Action) : (insertAction q a).Pairwise InOrder := by
  induction q with
  | nil => simp [insertAction]
  | cons b rest ih =>
    rw [List.pairwise_cons] at h
    by_cases hb : standsBefore a b = true
    · have he : insertAction (b :: rest) a = b :: insertAction rest a := by
        simp [insertAction, hb]
      rw [he, List.pairwise_cons]
      refine ⟨fun x hx => ?_, ih h.2⟩
      rcases List.mem_cons.mp ((insertAction_perm rest a).mem_iff.mp hx) with rfl | hx
      · exact standsBefore_inOrder hb
      · exact h.1 x hx
    · have hb' : standsBefore a b = false := by simpa using hb
      have he : insertAction (b :: rest) a = a :: b :: rest := by simp [insertAction, hb']
      rw [he, List.pairwise_cons, List.pairwise_cons]
      refine ⟨fun x hx => ?_, h⟩
      rcases List.mem_cons.mp hx with rfl | hx
      · exact not_standsBefore_inOrder hb'
      · exact (not_standsBefore_inOrder hb').trans (h.1 x hx)

/-! ### Purges (R144) -/

theorem mem_heldKeys {v : Vector Nat 61} {k : Key} : k ∈ heldKeys v ↔ 0 < vget v k := by simp [heldKeys]

theorem stamped_get (ks : List Key) (t : PartTime) (v : Vector (Option PartTime) 61) (k : Key) :
    vget (ks.foldl (fun v k => vset v k (some t)) v) k = if k ∈ ks then some t else vget v k := by
  induction ks using List.reverseRecOn with
  | nil => rfl
  | append_singleton up last ih =>
    rw [List.foldl_append, List.foldl_cons, List.foldl_nil, vget_vset, ih]
    by_cases hk : k = last <;> simp [hk]

/-- The purge of a division. -/
theorem purged_purge (s : State) (d : Division) : Purged s (purge s d) d := by
  unfold Purged purge
  by_cases h : (heldKeys (s.sched.holds.get d)).isEmpty = true
  · simp only [h, if_true]
    refine ⟨by simp [queue], by simp, fun w hw hc hd => by simp [Option.filter_eq_some_iff, hc, hd] at hw, by simp [vget], fun k => ?_, ?_⟩
    · simp [stampedKeyUps, stamped_get, mem_heldKeys]
    · rintro ⟨k, hk⟩
      have := mem_heldKeys.mpr hk
      rw [List.isEmpty_iff.mp h] at this
      cases this
  · simp only [h]
    refine ⟨by simp [queue], by simp, fun w hw hc hd => by simp [Option.filter_eq_some_iff, hc, hd] at hw, by simp [vget], fun k => ?_, ?_⟩
    · simp [stampedKeyUps, stamped_get, mem_heldKeys]
    · intro; simp

/-- A purge leaves the other divisions. -/
theorem purge_other (s : State) {d e : Division} (h : e ≠ d) :
    queue (purge s d) e = queue s e ∧ (purge s d).sched.holds.get e = s.sched.holds.get e ∧
      (purge s d).sched.keyUps.get e = s.sched.keyUps.get e ∧ (purge s d).sched.catchUp.get e = s.sched.catchUp.get e := by
  unfold purge; split <;> simp [queue, PerDiv.get_set, h]

/-! ### The step store (R2, R9, R15) -/

theorem stepRec_writeStep (s : State) (n k : StepNo) (r : StepRec) :
    stepRec (writeStep s n r) k = if k = n then r else stepRec s k := by
  simp [stepRec, writeStep, vget_vset]

@[simp] theorem chain_writeStep (s : State) (n : StepNo) (r : StepRec) (l : ListNo) : chain (writeStep s n r) l = chain s l := rfl

@[simp] theorem chain_writeResult (s : State) (n : StepNo) (f : StepRec → StepRec) (l : ListNo) :
    chain (writeResult s n f) l = chain s l := by
  unfold writeResult; split <;> rfl

/-- A result write leaves a step of the free list and every other step. -/
theorem stepRec_writeResult (s : State) (n k : StepNo) (f : StepRec → StepRec) :
    stepRec (writeResult s n f) k = if k = n ∧ (stepRec s n).list ≠ 0 then f (stepRec s n) else stepRec s k := by
  unfold writeResult
  by_cases h : (stepRec s n).list = 0
  · simp [h]
  · simp [h, stepRec_writeStep]

@[simp] theorem chain_withChain_same (s : State) (l : ListNo) (c : List StepNo) : chain (withChain s l c) l = c := by
  simp [chain, withChain]

theorem chain_withChain (s : State) (l k : ListNo) (c : List StepNo) :
    chain (withChain s l c) k = if k = l then c else chain s k := by
  simp [chain, withChain, vget_vset]

@[simp] theorem stepRec_withChain (s : State) (l : ListNo) (c : List StepNo) (n : StepNo) :
    stepRec (withChain s l c) n = stepRec s n := rfl

/-! ### Images (R127) -/

theorem bitsOf_getLsbD {w : Nat} (l : List Nat) {i : Nat} (h : i < w) : (bitsOf w l).getLsbD i = l.contains i := by
  induction l with
  | nil => simp [bitsOf]
  | cons n rest ih =>
    rw [bitsOf, BitVec.getLsbD_or, ih, BitVec.getLsbD_twoPow]
    by_cases h1 : n = i
    · subst h1; simp [h]
    · have h2 : i ≠ n := fun e => h1 e.symm
      simp [h1, h2]

theorem mem_membersOf {w : Nat} {b : BitVec w} {n : Nat} : n ∈ membersOf b ↔ b.getLsbD n = true := by
  simp only [membersOf, List.mem_filter, List.mem_range, and_iff_right_iff_imp]
  intro h
  exact BitVec.lt_of_getLsbD h

/-- Key `k` is in the playback image when its hold count is above 0. -/
theorem playImage_getLsbD (s : State) (d : Division) (k : Key) :
    (playImage s d).getLsbD k.val = decide (0 < vget (s.sched.holds.get d) k) := by
  rw [playImage, bitsOf_getLsbD _ (by omega)]
  by_cases h : 0 < vget (s.sched.holds.get d) k
  · simp only [h, decide_true, List.contains_eq_mem, List.mem_map, decide_eq_true_eq]
    exact ⟨k, mem_heldKeys.mpr h, rfl⟩
  · simp only [h, decide_false, List.contains_eq_mem, List.mem_map, decide_eq_false_iff_not]
    rintro ⟨x, hx, he⟩
    rw [Fin.ext he] at hx
    exact h (mem_heldKeys.mp hx)

/-! ### The clock (R56, R61, R68) -/

theorem position_of_not_moving {s : State} (h : s.clock.state ≠ .moving) : position s = s.clock.x0 := by
  unfold position; split
  · contradiction
  · rfl

/-- With no tempo pending a crossed boundary raises the highest position and changes nothing else of the clock (R74). -/
theorem crossBoundary_of_no_tempo {s : State} (h : s.clock.pendingTempo = none) :
    crossBoundary s = raiseHighest s (nextBoundary s) (reachTime s (nextBoundary s)) := by
  simp [crossBoundary, h]

/-- What a stop of the clock does (R79): the clock, and the alerts of the boundaries its re-anchor crosses. -/
theorem stopClock_spec (s : State) (zero : Bool) :
    (stopClock s zero).clock =
        { stoppedClock s with beats := if zero then 0 else s.clock.beats + BitVec.ofNat 32 (stopCrossings s) } ∧
      (stopClock s zero).handler = ((stopAlerts s).foldl postAlert s).handler := by
  have post : ∀ (c : Clock) (a : Alert), (postAlert (s.withClock c) a).handler = (postAlert s a).handler := by
    intro c a
    by_cases h : s.handler.alerts.length < Config.alertMax <;> simp [postAlert, loseAlert, h]
  cases h : s.clock.state <;>
    simp [stopClock, riseAtStop, raiseHighest, stoppedClock, stopCrossings, stopAlerts, beatReported, h] <;>
    split <;> simp_all

@[simp] theorem rawAt_now (c : Clock) : rawAt c c.t0 = c.x0 := by simp [rawAt, tdiff]

/-- A re-anchor never leaves the clock STOPPED. -/
theorem installAnchor_state (s : State) (ta : PartTime) (xa : Pos) (p : Nat) :
    (installAnchor s ta xa p).clock.state = .moving ∨ (installAnchor s ta xa p).clock.state = .held := by
  simp only [installAnchor]
  split
  · split <;> simp
  · simp

/-- The period a re-anchor installs. -/
@[simp] theorem installAnchor_period (s : State) (ta : PartTime) (xa : Pos) (p : Nat) :
    (installAnchor s ta xa p).clock.period = p := by
  simp only [installAnchor]
  split
  · split <;> simp
  · simp

/-- The follower is told of nothing while the clock is not HELD. -/
theorem settle_of_not_held {s : State} (h : s.clock.state ≠ .held) : settle s = s := by
  unfold settle settleFor
  split
  · rename_i h1 _ _; exact absurd h1 h
  · rfl

/-- The follower is told of nothing unless play is RUNNING or GAP. -/
theorem settle_of_not_playing {s : State} (h : playing s = false) : settle s = s := by
  unfold settle settleFor
  split
  · rename_i _ h1 _; rw [h] at h1; cases h1
  · rfl

/-! ### Frames (R159, R187) -/

theorem out16_word {n : Nat} (h : n < 65536) : word (BitVec.ofNat 8 n) (BitVec.ofNat 8 (n / 256)) = n := by
  simp [word]; omega

/-- A frame the part forms passes the tests of its header and check. -/
theorem readFrame_formFrame {kind addr : Nat} {payload : List Byte} (hk : 1 ≤ kind ∧ kind ≤ 6) (ha : addr < 256)
    (hp : payload.length ≤ 60) :
    readFrame (formFrame kind addr payload) = some { kind := kind, addr := addr, payload := payload } := by
  have hn : (formFrame kind addr payload).length - 5 = payload.length := by
    simp only [formFrame, out8, out16, List.length_append, List.length_cons, List.length_nil]; omega
  have hb : (formFrame kind addr payload).take (3 + payload.length) = out8 kind ++ out8 addr ++ out8 payload.length ++ payload := by
    simp only [formFrame, out8]
    rw [List.take_append_of_le_length (by simp; omega), List.take_of_length_le (by simp; omega)]
  have h0 : byteAt (formFrame kind addr payload) 0 = kind := by
    simp [formFrame, out8, byteAt]; omega
  have h1 : byteAt (formFrame kind addr payload) 1 = addr := by
    simp [formFrame, out8, byteAt]; omega
  have h2 : byteAt (formFrame kind addr payload) 2 = payload.length := by
    simp [formFrame, out8, byteAt]; omega
  have hc : wordAt (formFrame kind addr payload) (3 + payload.length) =
      (crc (out8 kind ++ out8 addr ++ out8 payload.length ++ payload)).toNat := by
    have hl : (out8 kind ++ out8 addr ++ out8 payload.length ++ payload).length = 3 + payload.length := by
      simp [out8]; omega
    generalize hg : out8 kind ++ out8 addr ++ out8 payload.length ++ payload = body at *
    simp only [formFrame, hg, wordAt, byteAt]
    rw [List.getD_append_right _ _ _ _ (by omega), List.getD_append_right _ _ _ _ (by omega), hl]
    have hlt := (crc body).isLt
    simp [out16]
    omega
  unfold readFrame
  simp only [hn, hb, h0, h1, h2, hc, kindKeys, kindAlert]
  rw [if_neg (by simp [formFrame, out8, out16]), if_neg (by omega), if_neg (by simp), if_neg (by omega)]
  congr 2
  simp [formFrame, out8]

end Machine

end Sys2Proof
end

