-- ==== Sys2Proof/WellFormed.lean ====
section
/-! DEFINITION. Well-formed commands: a frame row carries a frame the line can carry and of the row's own kind (section 11.1), a key
lies within its division. -/

namespace Sys2Proof

/-- The most bytes of a relay frame: header 3, payload 60, check 2 (section 11.1). -/
def frameMax : Nat := 65

/-- The most bytes of a pickup level frame (section 11.5). -/
def levelFrameMax : Nat := 11

/-- Bytes received whose first byte, if there is one, is the kind of the row. -/
def frameOfKind (k : Nat) (bytes : List (BitVec 8)) : Bool :=
  decide (bytes.length ≤ frameMax) && decide (bytes.head?.map BitVec.toNat = some k)

/-- A chest frame whose report kind, the first byte of its payload, is the row's. -/
def chestOfKind (k : Nat) (bytes : List (BitVec 8)) : Bool :=
  frameOfKind 3 bytes && decide ((bytes.drop 3).head?.map BitVec.toNat = some k)

/-- A well-formed command. -/
def Instr.wellFormed : Instr → Bool
  | .consoleKeysFrame bytes => frameOfKind 1 bytes
  | .consoleStopsFrame bytes => frameOfKind 2 bytes
  | .manageFrame bytes => frameOfKind 4 bytes
  | .cipher bytes => chestOfKind 1 bytes
  | .driver bytes => chestOfKind 2 bytes
  | .windLow bytes => chestOfKind 3 bytes
  | .windOk bytes => chestOfKind 4 bytes
  | .downstreamReply bytes => frameOfKind 5 bytes
  | .downstreamAlert bytes => frameOfKind 6 bytes
  | .downstreamFrameDiscard bytes => decide (bytes.length ≤ frameMax)
  | .levelFrame bytes => decide (bytes.length ≤ levelFrameMax)
  | .keyUpTimeExpiry d k => decide (k.val ≤ d.top)
  | .stopPut => true
  | .stopGet => true
  | .divPut => true
  | .divGet => true
  | .regPut => true
  | .regGet => true
  | .planPut => true
  | .planGet => true
  | .planSize => true
  | .followPut => true
  | .followGet => true
  | .pickupPut => true
  | .pickupGet => true
  | .soundPut => true
  | .soundGet => true
  | .stepNew => true
  | .stepSet => true
  | .stepMove => true
  | .stepFree => true
  | .listEmpty => true
  | .listLength => true
  | .stepGet => true
  | .listGet => true
  | .mode => true
  | .start => true
  | .finish => true
  | .halt => true
  | .release => true
  | .tempoNow => true
  | .tempoNextBeat => true
  | .regNow => true
  | .reportRate => true
  | .faultClear => true
  | .status => true
  | .restart => true
  | .reset => true
  | .unknownRequest => true
  | .downstreamTake => true
  | .downstreamSendDone => true
  | .upstreamTake => true
  | .upstreamSendDone => true
  | .powerOn => true
  | .resetInput => true
  | .resetEnd _ _ => true
  | .bypassRelease => true
  | .downstreamReceiveStart => true
  | .staleTimerExpiry => true
  | .boostExpiry => true
  | .beatBoundary => true
  | .anchorRenewal => true
  | .stopPointReached => true
  | .gapOriginReached => true
  | .phraseEndReached => true
  | .nextEntryEngage => true
  | .pointOpen => true
  | .pointClose => true
  | .leadInExpiry => true
  | .holdTimerExpiry => true
  | .endingToIdle => true
  | .pendingModeEffect => true
  | .stepPlace _ => true
  | .catchUpPlace _ => true
  | .pressIssue _ => true
  | .releaseIssue _ => true
  | .listVisit => true
  | .listCommandDone => true

end Sys2Proof
end

