-- ==== Sys2Proof/Tests/Slice0.lean ====
section
/-! SUPPORT. Tests. Those named witness_<statement> show a state and operands that meet the hypotheses of a statement, clause by clause at
the edges of its ranges, with the values its rule gives; the others take their figures from the worked examples of spec/. -/

namespace Sys2Proof

namespace Tests

set_option Elab.async false

open Sys2Proof.Machine

/-! ### Helpers -/

/-- The next state of an outcome. -/
def after_ (o : Host.Outcome State Fault Refusal) : State :=
  match o with
  | .next s => s
  | _ => State.reset

/-- The part after a full reset, its lines open. -/
def opened : State :=
  State.reset.withRelay { State.reset.relay with bypass := false, downReceiving := true }

/-- `s` with one request buffered. -/
def told (s : State) (p : List Byte) : State := s.withHandler { s.handler with buffer := [p] }

/-- A request of tag 7 stands at the head of the buffer of `told`. -/
abbrev Asks (s : State) (code : Byte) (args : List Byte) : Prop := Taking (told s (7 :: code :: args)) 7 code args

/-- The reply in the slot after command `i`: its result and its data. -/
def answered (i : Instr) (s : State) (code : Byte) (args : List Byte) : Option (Result × List Byte) :=
  (after_ (exec i (told s (7 :: code :: args)))).relay.slot.map fun r => (r.result, r.data)

/-- A step of list `l`. -/
def note (l : ListNo) (onset duration : Nat) (d : Division) (keys : List Key) (fermata : Bool) : StepRec :=
  { list := l
    music := { onset := onset, duration := duration, division := d, keys := keys, verses := 255, expect := true
               fermata := fermata, tie := false }
    deviation := none, matchCount := 0, sounding := .notYet }

/-- Lists 2 (steps 0 and 1, phrase length 192) and 3 (step 2, phrase length 96). -/
def songStore : Store :=
  { steps := vset (vset (vset State.reset.store.steps 0 (note 2 0 96 .great [10, 14] false)) 1 (note 2 96 96 .swell [20] true))
      2 (note 3 0 96 .great [12] false)
    chains := vset (vset (vset State.reset.store.chains 0 ((List.finRange 2048).drop 3)) 2 [0, 1]) 3 [2]
    lengths := vset (vset State.reset.store.lengths 2 192) 3 96
    unplaced := none }

/-- Every step of `songStore` has a duration above 0. -/
theorem songStore_durations (n : StepNo) : 0 < (vget songStore.steps n).music.duration := by
  simp only [songStore, vget_vset]
  split_ifs
  · decide
  · decide
  · decide
  · simp [State.reset, Store.reset, StepRec.reset, vget]

/-- A plan of two entries over lists 2 and 3, the mode FOLLOW, part time 60,000. -/
def song (first second : StartKind) : State :=
  let e : PlanEntry := { vget opened.tables.plan 0 with start := first, list := 2 }
  let t := { opened.tables with
    plan := vset (vset opened.tables.plan 0 e) 1 { e with start := second, list := 3 }, planSize := 2 }
  (((opened.withStore songStore).withTables t).withFollower { opened.follower with mode := .follow }).withPartTime 60000

/-- The song at beat 1 of entry 0: RUNNING, the position 24,576. -/
def running (second : StartKind) : State :=
  let s := song .organLed second
  ((s.withFollower { s.follower with play := .running, current := some 0, lockSet := [2], pointsCurrent := some 0 }).withClock
    { s.clock with state := .moving }).withSched { s.sched with walkCurrent := some 0 }

/-! ### Ill-formed commands are refused -/

theorem test_wellFormed_refuses :
    (Instr.consoleKeysFrame [2]).wellFormed = false ∧ (Instr.consoleStopsFrame [1]).wellFormed = false ∧
      (Instr.manageFrame (List.replicate 66 4)).wellFormed = false ∧ (Instr.cipher [3, 0, 2, 2, 0]).wellFormed = false ∧
      (Instr.driver [3, 0, 2, 1, 0]).wellFormed = false ∧ (Instr.windLow [3, 0, 2, 4, 0]).wellFormed = false ∧
      (Instr.windOk [1, 0, 2, 4, 0]).wellFormed = false ∧ (Instr.downstreamReply [6]).wellFormed = false ∧
      (Instr.downstreamAlert []).wellFormed = false ∧
      (Instr.downstreamFrameDiscard (List.replicate 66 0)).wellFormed = false ∧
      (Instr.levelFrame (List.replicate 12 0)).wellFormed = false ∧ (Instr.keyUpTimeExpiry .pedal 32).wellFormed = false := by
  decide

theorem test_wellFormed_accepts :
    (Instr.cipher [3, 0, 2, 1, 0]).wellFormed = true ∧ (Instr.keyUpTimeExpiry .pedal 31).wellFormed = true ∧
      (Instr.levelFrame (List.replicate 11 0)).wellFormed = true := by decide

/-- R187: the check of the nine bytes "123456789" is 29B1H. -/
theorem test_crc : crc [49, 50, 51, 52, 53, 54, 55, 56, 57] = 0x29B1#16 := by decide +kernel

/-! ### The queue of commands -/

theorem witness_StepRunsTheFrontCommand :
    (State.reset.withPending [.status, .halt]).pending = .status :: [.halt] := rfl

theorem witness_PartTimeRunsWhenNothingIsDue :
    (dueEvents State.reset = [] ∧ visitDue State.reset = false) ∧
      (let s := (opened.withCtl { opened.ctl with phase := .busy, work := some (.length 2 5) }).withPartTime 2
       dueEvents s = [] ∧ visitDue s = true ∧ visitPressing s = true) ∧
      dueEvents (opened.withDetector { opened.detector with boostUntil := some 0 }) = [.boostExpiry] := by
  decide +kernel

/-! ### Tables -/

theorem witness_StopPutStoresTheEntryClamped :
    Asks opened 1 [byte (47 : Fin 48).val, byte Division.positive.num, 33, 78, 169, 97] ∧
      Asks opened 1 [48, 3, 0, 0, 0, 0] ∧ 48 ≤ (48 : Byte).toNat ∧ Asks opened 1 [0, 4, 0, 0, 0, 0] ∧ 4 ≤ (4 : Byte).toNat ∧
      Asks opened 2 [byte (47 : Fin 48).val] ∧ Asks opened 2 [48] := by
  unfold Asks Taking
  decide +kernel

/-- R50: a lead above 20,000 is stored as 20,000, a bleed length above 25,000 as 25,000. -/
theorem test_stopPut :
    answered .stopPut opened 1 [47, 3, 33, 78, 169, 97] = some (.done, [47, 3, 32, 78, 168, 97]) ∧
      answered .stopPut opened 1 [48, 3, 0, 0, 0, 0] = some (.range, []) := by decide +kernel

theorem witness_DivPutStoresTheChamberDelayClamped :
    Asks opened 3 [byte Division.positive.num, 17, 39] ∧ Asks opened 3 [4, 0, 0] ∧ 4 ≤ (4 : Byte).toNat ∧
      Asks opened 4 [byte Division.positive.num] ∧ Asks opened 4 [4] ∧ Asks opened 113 [] ∧ Asks opened 67 [] := by
  unfold Asks Taking
  decide +kernel

/-- R51: a delay above 10,000 is stored as 10,000. -/
theorem test_divPut :
    answered .divPut opened 3 [3, 17, 39] = some (.done, [3, 16, 39]) ∧
      answered .divGet opened 4 [4] = some (.range, []) := by decide +kernel

theorem witness_RegPutReplacesTheSet :
    (2#8).toNat = [47#8, 0#8].length ∧ Asks opened 5 (15 :: 2 :: [47, 0]) ∧ (15 : Byte).toNat < 16 ∧
      (∀ n ∈ [47#8, 0#8], n.toNat < 48) ∧ Asks opened 5 [16, 0] ∧ 16 ≤ (16 : Byte).toNat ∧
      Asks opened 5 (0 :: 1 :: [48]) ∧ (∃ n ∈ [48#8], 48 ≤ n.toNat) ∧ Asks opened 6 [15] ∧ Asks opened 6 [16] := by
  unfold Asks Taking
  decide +kernel

/-- R45: a set is answered in ascending order, a stop listed twice once. -/
theorem test_regPut : answered .regPut opened 5 [15, 3, 47, 0, 47] = some (.done, [15, 2, 0, 47]) := by decide +kernel

/-- The Great's stop 5 in set 1, and set 1 active. -/
def drawn : State :=
  ((opened.withTables { opened.tables with
      sets := vset opened.tables.sets 1 32, stops := vset opened.tables.stops 5 { division := .great, speechLead := 0, bleed := 0 }
    }).withSched { opened.sched with active := some 1, stopImage := 32 })

theorem witness_StopImageIsFormedFromTheActiveSet :
    drawn.sched.active = some 1 ∧ opened.sched.active = none ∧ (reformStops drawn).sched.stopImage = drawn.sched.stopImage ∧
      (let s := drawn.withProt { drawn.prot with faults := drawn.prot.faults.set .great (some driverRec) }
       (reformStops s).sched.stopImage ≠ s.sched.stopImage) := by decide +kernel

theorem witness_PlanPutChecksThenWritesTheEntry :
    Asks (running .organLed) 7 [63, 63, 7, 255, 2, 129, 1, 17, 0, 244, 15, 5, 0, 0, 0, 0] ∧
      ¬(64 ≤ (63 : Byte).toNat ∨ (63 : Byte).toNat = 0 ∨ 64 ≤ (63 : Byte).toNat ∨ 8 ≤ (7 : Byte).toNat ∨
        3 ≤ (2 : Byte).toNat ∨ (244 : Byte).toInt < -12 ∨ 12 < (244 : Byte).toInt ∨
        (15 : Byte).truncate 4 &&& available (running .organLed) = 0) ∧
      (running .organLed).follower.current = some 0 ∧ (running .organLed).follower.next = none := by
  unfold Asks Taking
  decide +kernel

/-- R37 to R39: RANGE for index 64, PLAYING for the current entry, and the clamps: gap 384, lead-in 16, hold 1, minimum 4. -/
theorem test_planPut :
    answered .planPut (running .organLed) 7 [64, 63, 7, 255, 2, 129, 1, 17, 0, 244, 15, 5, 0, 0, 0, 0] = some (.range, []) ∧
      answered .planPut (running .organLed) 7 [0, 63, 7, 255, 2, 129, 1, 17, 0, 244, 15, 5, 0, 0, 0, 0] = some (.playing, []) ∧
      answered .planPut (running .organLed) 7 [63, 63, 7, 255, 2, 129, 1, 17, 0, 244, 15, 5, 0, 0, 0, 0] =
        some (.done, [63, 63, 7, 255, 2, 128, 1, 16, 1, 244, 15, 4, 0, 0, 0, 0]) := by decide +kernel

theorem witness_PlanGetAndPlanSize :
    Asks opened 8 [63] ∧ (63 : Byte).toNat < 64 ∧ Asks opened 8 [64] ∧ Asks opened 9 [64] ∧ opened.follower.current = none ∧
      Asks opened 9 [65] ∧ Asks (running .organLed) 9 [0] ∧ (running .organLed).follower.current = some 0 := by
  unfold Asks Taking
  decide +kernel

/-- R43: sizes 0 and 1 with entry 0 current. -/
theorem test_planSize :
    answered .planSize (running .organLed) 9 [0] = some (.playing, []) ∧
      answered .planSize (running .organLed) 9 [1] = some (.done, [1]) ∧
      answered .planSize opened 9 [65] = some (.range, []) := by decide +kernel

theorem witness_FollowPutStoresTheProfileClamped :
    Asks opened 10 [3, 17, 0, 65, 33, 48, 117, 0, 0, 48, 117, 0, 0, 0, 1] ∧ (1 : Byte).toNat ≤ 1 ∧
      Asks opened 10 [3, 17, 0, 65, 33, 64, 13, 3, 0, 48, 117, 0, 0, 0, 1] ∧ long 48 117 0 0 < long 64 13 3 0 ∧
      Asks opened 10 [3, 17, 0, 65, 33, 48, 117, 0, 0, 48, 117, 0, 0, 0, 2] ∧ 1 < (2 : Byte).toNat ∧ Asks opened 11 [] := by
  unfold Asks Taking
  decide +kernel

/-- R63, R179: a range of 30,000..30,000 clamps the period of 60,000 at once. -/
theorem test_followPut :
    (after_ (exec .followPut (told opened [7, 10, 3, 17, 0, 65, 33, 48, 117, 0, 0, 48, 117, 0, 0, 0, 1]))).clock.period = 30000 ∧
      answered .followPut opened 10 [3, 17, 0, 65, 33, 48, 117, 0, 0, 48, 117, 0, 0, 0, 1] =
        some (.done, [4, 16, 1, 64, 32, 48, 117, 0, 0, 48, 117, 0, 0, 1, 1]) := by decide +kernel

theorem witness_PickupAndSoundProfilesAreClamped :
    Asks opened 12 [0, 3, 224, 1, 231, 3, 61, 224, 1, 207, 7, 209, 7] ∧ Asks opened 13 [] ∧ Asks opened 14 [17, 39] ∧
      Asks opened 15 [] := by
  unfold Asks Taking
  decide +kernel

/-- R96, R147: one value beyond each range, clamped. -/
theorem test_pickupPut :
    answered .pickupPut opened 12 [0, 3, 224, 1, 231, 3, 61, 224, 1, 207, 7, 209, 7] =
        some (.done, [1, 4, 223, 1, 232, 3, 60, 223, 1, 208, 7, 208, 7]) ∧
      answered .soundPut opened 14 [17, 39] = some (.done, [16, 39]) ∧
      answered .soundGet opened 15 [] = some (.done, [184, 11]) := by decide +kernel

/-! ### Lists -/

/-- A LIST-LENGTH of list 5 in flight. -/
def listBusy : State :=
  opened.withCtl { opened.ctl with
    phase := .busy, cmd := { kind := some .listLength, step := none, source := some 5, target := none }, work := some (.length 5 9) }

/-- The musical fields of a step of 1 key on the Great: onset 32,767, duration 16,383, key 60. -/
def edgeMusic : List Byte := [255, 127, 255, 63, 1, 0, 1, 60]

/-- The part with an empty pool. -/
def noSteps : State := opened.withStore { opened.store with chains := vset opened.store.chains 0 [] }

theorem witness_StructuralRequestsAreCheckedInOrder :
    Asks listBusy 36 [0] ∧ listBusy.ctl.phase ≠ .ready ∧ requestRow [7, 36, 0] = .listEmpty ∧
      Asks opened 32 (0 :: edgeMusic) ∧ Req.fits .stepNew (0 :: edgeMusic) = true ∧ (musical? 1 (0 :: edgeMusic)).isSome ∧
      phraseList? (byteAt (0 :: edgeMusic) 0) = none ∧
      Asks (running .organLed) 32 (2 :: edgeMusic) ∧ phraseList? (byteAt (2 :: edgeMusic) 0) = some 2 ∧
      listLocked (running .organLed) 2 = true ∧ (running .organLed).ctl.phase = .ready ∧
      Asks noSteps 32 (63 :: edgeMusic) ∧ listLocked noSteps 63 = false ∧ chain noSteps 0 = [] ∧
      Asks opened 33 (0 :: 0 :: edgeMusic) ∧ Req.fits .stepSet (0 :: 0 :: edgeMusic) = true ∧ usedStep? opened 0 = none ∧
      usedStep? (running .organLed) 1 = some 1 ∧ (musical? 2 (1 :: 0 :: edgeMusic)).isSome ∧
      listLocked (running .organLed) (stepRec (running .organLed) 1).list = true ∧
      usedStep? (running .organLed) 2 = some 2 ∧ phraseList? 64 = none ∧ phraseList? 63 = some 63 ∧
      word 0 128 ≤ 32768 ∧ 32768 < word 1 128 := by
  unfold Asks Taking
  decide +kernel

/-- R18, R19: BUSY, then RANGE, then PLAYING, then EMPTY-POOL. -/
theorem test_structuralChecks :
    answered .listEmpty listBusy 36 [0] = some (.busy, []) ∧ answered .stepNew opened 32 (64 :: edgeMusic) = some (.range, []) ∧
      answered .stepNew (running .organLed) 32 (2 :: edgeMusic) = some (.playing, []) ∧
      answered .stepNew noSteps 32 (63 :: edgeMusic) = some (.emptyPool, []) ∧
      answered .listLength opened 37 [63, 1, 128] = some (.range, []) := by decide +kernel

theorem witness_MusicalFieldsAreReadInRange :
    ([] : List Byte).length = (if (0 : Byte).toNat.testBit 3 then 1 else 0) ∧
      ([1] : List Byte).length = (if (8 : Byte).toNat.testBit 3 then 1 else 0) ∧
      (musical? 1 (5 :: edgeMusic)).isSome ∧ musical? 1 [5, 0, 128, 1, 0, 1, 0, 0] = none ∧
      musical? 1 [5, 0, 0, 0, 0, 1, 0, 0] = none ∧ musical? 1 [5, 0, 0, 0, 64, 1, 0, 0] = none ∧
      ([5] : List Byte).length = 1 ∧ ([5, 0] : List Byte).length = 2 ∧ (musical? 2 (5 :: 0 :: edgeMusic)).isSome ∧
      musical? 2 [5, 0, 0, 128, 1, 0, 1, 0, 0] = none ∧ musical? 1 [5, 0, 0, 1, 0, 0, 0, 1, 32] = none ∧ (musical? 1 [5, 0, 0, 1, 0, 0, 0, 1, 31]).isSome ∧
      musical? 1 [5, 0, 0, 1, 0, 1, 0, 2, 7, 7] = none := by decide +kernel

theorem witness_StructuralRequestsFillTheCommandRecord :
    Asks opened 32 (5 :: edgeMusic) ∧ Req.fits .stepNew (5 :: edgeMusic) = true ∧ opened.ctl.phase = .ready ∧
      phraseList? (byteAt (5 :: edgeMusic) 0) = some 5 ∧ (musical? 1 (5 :: edgeMusic)).isSome ∧ listLocked opened 5 = false ∧
      chain opened 0 = 0 :: (List.finRange 2048).drop 1 ∧
      Asks (song .organLed .organLed) 33 (1 :: 0 :: edgeMusic) ∧ usedStep? (song .organLed .organLed) 1 = some 1 ∧
      (musical? 2 (1 :: 0 :: edgeMusic)).isSome ∧ Req.fits .stepSet (1 :: 0 :: edgeMusic) = true ∧
      listLocked (song .organLed .organLed) 2 = false ∧ (song .organLed .organLed).ctl.phase = .ready ∧
      Asks (song .organLed .organLed) 34 [1, 0, byte (63 : ListNo).val] ∧ Asks (song .organLed .organLed) 35 [1, 0] ∧
      Asks (song .organLed .organLed) 36 [byte (2 : ListNo).val] ∧ Asks (song .organLed .organLed) 37 [byte (2 : ListNo).val, 0, 128] ∧
      word 0 128 ≤ 32768 := by
  unfold Asks Taking
  decide +kernel

theorem witness_StepGetAndListGetReadTheStore :
    Asks opened 38 [255, 7] ∧ word 255 7 = (2047 : StepNo).val ∧ Asks opened 38 [0, 8] ∧ 2048 ≤ word 0 8 ∧
      Asks listBusy 39 [5, 0, 0] ∧ listBusy.ctl.cmd.source = some 5 ∧ Asks opened 39 [63, 255, 7] ∧ word 255 7 ≤ 2047 ∧
      Asks opened 39 [64, 0, 0] ∧ 2047 < word 0 8 ∧ (song .organLed .organLed).ctl.cmd.source ≠ some 2 := by
  unfold Asks Taking
  decide +kernel

/-- Section 11.2: the records of step 1 and of list 2 of the song. -/
theorem test_stepGet :
    answered .stepGet (song .organLed .organLed) 38 [1, 0] =
        some (.done, [1, 0, 2, 0, 0, 255, 255, 96, 0, 96, 0, 2, 11, 1, 255, 20, 0, 128, 0, 0]) ∧
      answered .listGet (song .organLed .organLed) 39 [2, 1, 0] =
        some (.done, [2, 2, 0, 0, 0, 1, 0, 192, 0, 0, 1, 1, 0]) := by decide +kernel

/-- The song with work `w` of command `k` in flight. -/
def visiting (k : CmdKind) (w : Work) : State :=
  (song .organLed .organLed).withCtl { opened.ctl with
    phase := .busy, cmd := { kind := some k, step := some 1, source := some 2, target := some 3 }, work := some w, tag := 7 }

/-- The musical fields of step 1 at onset `t`. -/
def music (t : Nat) : Musical := { (note 2 t 96 .swell [20] true).music with onset := t }

theorem witness_ListVisitWritesTheStepAndWalks :
    (visiting .stepSet (.setWrite 1 (music 0) 2)).relay.resetting = false ∧
      (visiting .stepSet (.setWrite 1 (music 0) 2)).ctl.cmd.kind ≠ some .stepNew ∧
      (music 0).onset ≠ (stepRec (visiting .stepSet (.setWrite 1 (music 0) 2)) 1).music.onset ∧
      (music 96).onset = (stepRec (visiting .stepSet (.setWrite 1 (music 96) 2)) 1).music.onset ∧
      (visiting .stepNew (.newWrite 1 (music 0) 2)).ctl.reply = none ∧
      (visiting .stepMove (.walk 1 96 3 [2])).ctl.work = some (.walk 1 96 3 (2 :: [])) := by decide +kernel

/-- R26: an onset moved before the first step of the list walks over step 0. -/
theorem test_setVisit :
    (after_ (exec .listVisit (visiting .stepSet (.setWrite 1 (music 0) 2)))).ctl.work = some (.walk 1 0 2 [0]) ∧
      (after_ (exec .listVisit (visiting .stepMove (.walk 1 96 3 [2])))).ctl.work = some (.link 1 96 3 (some 2)) := by
  decide +kernel

theorem witness_ListVisitLinksTheStep :
    (visiting .stepMove (.link 1 96 3 (some 2))).relay.resetting = false ∧
      (visiting .stepMove (.link 1 96 3 (some 2))).ctl.work = some (.link 1 96 3 (some 2)) ∧
      (visiting .stepMove (.link 1 96 3 (some 2))).ctl.cmd.kind = some .stepMove ∧
      (visiting .stepSet (.link 1 96 2 (some 0))).ctl.cmd.kind = some .stepSet ∧
      (visiting .stepNew (.link 1 96 2 none)).ctl.reply = none := by decide +kernel

theorem test_linkVisit :
    (let t := after_ (exec .listVisit (visiting .stepMove (.link 1 96 3 (some 2))))
     chain t 2 = [0] ∧ chain t 3 = [2, 1] ∧ (stepRec t 1).list = 3) := by decide +kernel

theorem witness_ListVisitFreesEmptiesAndMeasures :
    (visiting .stepFree (.free 1)).ctl.cmd.kind ≠ some .stepNew ∧ (stepRec (visiting .stepFree (.free 1)) 1).list = 2 ∧
      chain (visiting .listEmpty (.empty 2 0)) 2 = 0 :: [1] ∧ chain (visiting .listEmpty (.empty 3 0)) 3 = 2 :: [] ∧
      (visiting .listLength (.length 63 32768)).ctl.work = some (.length 63 32768) := by decide +kernel

/-- A command whose reply waits for the slot. -/
def replying (w : Option Work) (p : Play) : State :=
  (listBusy.withCtl { listBusy.ctl with work := w, reply := some (doneReply 7 37 [5, 9, 0]) }).withFollower
    { listBusy.follower with play := p }

theorem witness_ListCommandDonePlacesTheReply :
    (replying none .idle).relay.resetting = false ∧ (replying none .idle).ctl.reply = some (doneReply 7 37 [5, 9, 0]) ∧
      (replying none .idle).relay.slot = none ∧ (replying none .idle).follower.play = .idle ∧
      (replying none .running).follower.play ≠ .idle ∧ (replying (some (.length 5 9)) .idle).ctl.work = some (.length 5 9) := by
  decide +kernel

/-! ### Play control -/

/-- The running song with one key of the Great held by playback. -/
def sounding : State :=
  let s := running .organLed
  s.withSched { s.sched with holds := s.sched.holds.set .great (vset (s.sched.holds.get .great) 10 1) }

theorem witness_ModeChangesOrWaitsForSilence :
    Asks opened 64 [4] ∧ 4 ≤ (4 : Byte).toNat ∧ Asks sounding 64 [byte Mode.rehearse.code] ∧
      sounding.follower.mode = .follow ∧ sounding.follower.play ≠ .idle ∧ imagesEmpty sounding = false ∧ imagesEmpty (running .organLed) = true ∧
      Asks opened 64 [byte Mode.follow.code] ∧ opened.follower.mode = .off ∧ playing (running .organLed) = true ∧
      playing opened = false ∧ merges .follow ≠ merges .rehearse ∧ merges .off = merges .rehearse := by
  unfold Asks Taking
  decide +kernel

/-- R124: between REHEARSE and FOLLOW the change waits while a key sounds. -/
theorem test_mode :
    answered .mode sounding 64 [1] = some (.done, [18]) ∧ answered .mode (running .organLed) 64 [1] = some (.done, [1]) ∧
      answered .mode opened 64 [4] = some (.range, []) := by decide +kernel

/-- The song in WAITING for entry 0, HELD at 0. -/
def waiting : State :=
  let s := song .choirLed .organLed
  (s.withFollower { s.follower with
    play := .waiting, current := some 0, lockSet := [2], timer := some 60000
    stop := some { pos := 0, kind := .wait, reachedAt := some 0 } }).withClock { s.clock with state := .held }

theorem witness_ModeToOffAndToSteady :
    (∀ n, 0 < (stepRec waiting n).music.duration) ∧
    Asks sounding 64 [0] ∧ sounding.follower.mode ≠ .off ∧ sounding.follower.play ≠ .idle ∧
      Asks (song .organLed .organLed) 64 [0] ∧ (song .organLed .organLed).follower.play = .idle ∧ Asks waiting 64 [3] ∧
      waiting.follower.mode ≠ .steady ∧ waiting.follower.play = .waiting ∧ waiting.follower.current ≠ none ∧
      waiting.clock.state = .held ∧ waiting.follower.current = some 0 ∧ waiting.follower.next = none ∧
      waiting.clock.x0 ≤ waiting.clock.highest ∧ readable waiting 0 = true ∧
      phraseLength waiting (planEntry waiting 0).list ≠ 0 ∧ waiting.handler.alerts.length < 16 ∧
      merges sounding.follower.mode = true ∧
      (sounding.withFollower { sounding.follower with mode := .rehearse }).follower.mode ≠ .steady ∧
      merges (sounding.withFollower { sounding.follower with mode := .rehearse }).follower.mode = false ∧
      Asks (sounding.withFollower { sounding.follower with mode := .rehearse }) 64 [3] ∧ playImage sounding .great ≠ 0 ∧
      sounding.follower.play ≠ .waiting ∧ Asks sounding 64 [3] := by
  refine ⟨songStore_durations, ?_⟩
  unfold Asks Taking
  decide +kernel

/-- R116, R123: a change into STEADY starts the waiting entry from the wait's position, with manner RELEASED. -/
theorem test_steadyStartsTheWait :
    (let t := after_ (exec .mode (told waiting [7, 64, 3]))
     t.follower.play = .running ∧ t.follower.origin = 0 ∧ t.clock.state = .moving ∧ t.clock.t0 = 60000 ∧
       t.handler.alerts = [.phrase 0 .choirLed .released 60000]) := by decide +kernel

/-- The song with the escalated flag set. -/
def escalatedSong : State := (song .organLed .organLed).withProt { opened.prot with escalated := true }

/-- The song in mode FOLLOW without a plan. -/
def noPlan : State := let s := song .organLed .organLed; s.withTables { s.tables with planSize := 0 }

theorem witness_StartIsCheckedInOrder :
    Asks opened 65 [] ∧ opened.follower.mode = .off ∧ Asks escalatedSong 65 [0, 0, 0, 0] ∧
      escalatedSong.follower.mode ≠ .off ∧ escalatedSong.prot.escalated = true ∧ Asks (running .organLed) 65 [] ∧
      (running .organLed).prot.escalated = false ∧ (running .organLed).follower.play ≠ .idle ∧ Asks noPlan 65 [] ∧
      noPlan.follower.play = .idle ∧ noPlan.tables.planSize = 0 ∧ Asks (visiting .stepFree (.free 1)) 65 [] ∧
      (visiting .stepFree (.free 1)).tables.planSize ≠ 0 ∧
      involved (visiting .stepFree (.free 1)) (planEntry (visiting .stepFree (.free 1)) 0).list = true := by
  unfold Asks Taking
  decide +kernel

/-- R100: MODE, FAULTED, PLAYING, RANGE, BUSY. -/
theorem test_startRefused :
    answered .start opened 65 [] = some (.mode, []) ∧ answered .start escalatedSong 65 [] = some (.faulted, []) ∧
      answered .start (running .organLed) 65 [] = some (.playing, []) ∧ answered .start noPlan 65 [] = some (.range, []) ∧
      answered .start (visiting .stepFree (.free 1)) 65 [] = some (.busy, []) := by decide +kernel

theorem witness_StartBeginsEntryZero :
    (∀ n, 0 < (stepRec (song .organLed .organLed) n).music.duration) ∧
    Asks (song .choirLed .organLed) 65 [96, 234, 0, 0] ∧ long 96 234 0 0 ≠ 0 ∧ (song .choirLed .organLed).follower.mode ≠ .off ∧
      (song .choirLed .organLed).prot.escalated = false ∧ (song .choirLed .organLed).follower.play = .idle ∧
      (song .choirLed .organLed).tables.planSize ≠ 0 ∧ involved (song .choirLed .organLed) 2 = false ∧
      hasPoints (song .choirLed .organLed) 0 = true ∧ (planEntry (song .choirLed .organLed) 0).start = .choirLed ∧
      Asks (song .organLed .organLed) 65 [] ∧ (planEntry (song .organLed .organLed) 0).start ≠ .choirLed ∧
      phraseLength (song .organLed .organLed) 2 ≠ 0 := by
  refine ⟨songStore_durations, ?_⟩
  unfold Asks Taking
  decide +kernel

/-- R101, R103: entry 0 begins RUNNING at 0, with the END of the phrase not the stop point while an entry follows and the hold of
step 1 at 192 ticks ahead. -/
theorem test_start :
    (let t := after_ (exec .start (told (song .organLed .organLed) [7, 65]))
     t.follower.play = .running ∧ t.clock.state = .moving ∧ t.clock.x0 = 0 ∧ t.clock.t0 = 60000 ∧
       t.follower.stop = some { pos := 49152, kind := .hold, reachedAt := none }) ∧
    (after_ (exec .start (told (song .choirLed .organLed) [7, 65]))).follower.play = .waiting := by decide +kernel

/-- The running song with the next entry engaged at the end of the phrase. -/
def engagedSong : State :=
  let s := running .organLed
  s.withFollower { s.follower with next := some { start := .organLed, origin := 49152 }, lockSet := [2, 3] }

theorem witness_FinishEndsPlayAfterTheEntry :
    Asks opened 66 [] ∧ opened.follower.play = .idle ∧ Asks waiting 66 [] ∧ waiting.follower.play = .waiting ∧
      Asks engagedSong 66 [] ∧ engagedSong.follower.play = .running ∧ engagedSong.follower.finish = .none ∧
      engagedSong.follower.next.isSome ∧ Asks (running .organLed) 66 [] ∧ (running .organLed).follower.next = none := by
  unfold Asks Taking
  decide +kernel

/-- R120: NONE in IDLE, HELD while a next entry is engaged, PENDING otherwise and in WAITING. -/
theorem test_finish :
    answered .finish opened 66 [] = some (.done, [0]) ∧ answered .finish engagedSong 66 [] = some (.done, [1]) ∧
      answered .finish (running .organLed) 66 [] = some (.done, [2]) ∧ answered .finish waiting 66 [] = some (.done, [2]) := by
  decide +kernel

theorem witness_HaltStopsPlayAtOnce :
    Asks opened 66 [] ∧ Asks opened 67 [] ∧ opened.follower.play = .idle ∧ opened.follower.finish = .none ∧
      Asks sounding 67 [] ∧ sounding.follower.play ≠ .idle := by
  unfold Asks Taking
  decide +kernel

/-- R180, R144: HALT empties the images and marks the frame of the division that sounded. -/
theorem test_halt :
    (let t := after_ (exec .halt (told sounding [7, 67]))
     imagesEmpty t = true ∧ t.relay.downQueue = [.marker (.keys .great)] ∧ t.clock.state = .stopped ∧
       vget (t.sched.keyUps.get .great) 10 = some 60000) := by decide +kernel

/-- The song HOLDING at `x` subticks, its hold timer expired. -/
def holding (x : Pos) : State :=
  let s := running .organLed
  (s.withFollower { s.follower with
    play := .holding, timer := some 60000, stop := some { pos := x, kind := .hold, reachedAt := some 1 } }).withClock
      { s.clock with state := .held, x0 := x, highest := x }

/-- The song HOLDING at the end of the last phrase. -/
def lastHold : State := (holding 49152).withTables { (holding 49152).tables with planSize := 1 }

theorem witness_ReleaseEndsAHoldOrAWait :
    (∀ n, 0 < (stepRec waiting n).music.duration) ∧
    Asks (running .organLed) 68 [] ∧ (running .organLed).follower.play ≠ .holding ∧ (running .organLed).follower.play ≠ .waiting ∧
      Asks (holding 24576) 68 [] ∧ (holding 24576).follower.play = .holding ∧ (holding 24576).clock.state = .held ∧
      phraseEnd (holding 24576) = some 49152 ∧ (holding 24576).clock.x0 < 49152 ∧
      (holding 24576).clock.x0 ≤ (holding 24576).clock.highest ∧ Asks (holding 49152) 68 [] ∧
      (holding 49152).follower.play = .holding ∧ phraseEnd (holding 49152) = some 49152 ∧ nextIndex (holding 49152) = some 1 ∧
      Asks (lastHold) 68 [] ∧ phraseEnd lastHold = some 49152 ∧ nextIndex lastHold = none ∧ Asks waiting 68 [] ∧ waiting.follower.play = .waiting ∧
      waiting.clock.state = .held ∧ waiting.follower.current = some 0 ∧ waiting.follower.next = none ∧
      waiting.clock.x0 ≤ waiting.clock.highest ∧ readable waiting 0 = true ∧
      phraseLength waiting (planEntry waiting 0).list ≠ 0 := by
  refine ⟨songStore_durations, ?_⟩
  unfold Asks Taking
  decide +kernel

/-- R118, R116: the play state after a RELEASE is RUNNING. -/
theorem test_release :
    answered .release (holding 24576) 68 [] = some (.done, [3]) ∧ answered .release (holding 49152) 68 [] = some (.done, [3]) ∧
      answered .release lastHold 68 [] = some (.done, [5]) ∧ answered .release waiting 68 [] = some (.done, [3]) ∧
      answered .release opened 68 [] = some (.done, [0]) := by decide +kernel

theorem witness_TempoAppliesOrWaitsForTheBoundary :
    Asks opened 69 [0, 96, 234, 0, 0] ∧ Asks opened 69 [2, 96, 234, 0, 0] ∧ (2 : Byte).toNat ≠ 1 ∧ (2 : Byte).toNat ≠ 0 ∧
      Asks opened 69 [1, 0, 0, 0, 0] ∧ long 0 0 0 0 = 0 ∧ long 96 234 0 0 ≠ 0 ∧ opened.clock.state = .stopped ∧
      Asks (running .organLed) 69 [0, 96, 234, 0, 0] ∧ (running .organLed).clock.state = .moving ∧
      (running .organLed).follower.stop = none ∧ Asks waiting 69 [0, 96, 234, 0, 0] ∧ waiting.clock.state = .held ∧
      playing waiting = false ∧ waiting.follower.stop.map StopPoint.pos = some waiting.clock.x0 ∧
      Asks (running .organLed) 69 [1, 96, 234, 0, 0] ∧ (running .organLed).follower.play ≠ .idle ∧
      Asks opened 69 [1, 96, 234, 0, 0] ∧ opened.follower.play = .idle := by
  unfold Asks Taking
  decide +kernel

/-- R64, R62: a period below Pmin (40,000 after a full reset) is applied as Pmin; timing 2 and period 0 are out of range. -/
theorem test_tempo :
    answered .tempoNow opened 69 [0, 48, 117, 0, 0] = some (.done, [64, 156, 0, 0]) ∧
      answered .tempoNow opened 69 [2, 48, 117, 0, 0] = some (.range, []) ∧
      answered .tempoNextBeat opened 69 [1, 0, 0, 0, 0] = some (.range, []) ∧
      (after_ (exec .tempoNextBeat (told (running .organLed) [7, 69, 1, 80, 195, 0, 0]))).clock.pendingTempo = some 50000 := by
  decide +kernel

theorem witness_RegNowDrawsTheSet :
    Asks opened 70 [16] ∧ 16 ≤ (16 : Byte).toNat ∧ (16 : Byte).toNat ≠ 255 ∧ Asks opened 70 [15] ∧
      ((some 15 : Option SetNo).map Fin.val).getD 255 = (15 : Byte).toNat ∧ opened.follower.mode = .off ∧
      Asks (running .organLed) 70 [255] ∧ ((none : Option SetNo).map Fin.val).getD 255 = (255 : Byte).toNat ∧
      (running .organLed).follower.mode ≠ .off := by
  unfold Asks Taking
  decide +kernel

/-- The running song with beat count 14 and the report rate `n`. -/
def counted (n : Nat) : State := (running .organLed).withClock { (running .organLed).clock with beats := 14, rate := n }

theorem witness_ReportRateIsStoredAndRuled :
    Asks opened 71 [17] ∧ (counted 16).clock.rate = min (17 : Byte).toNat 16 ∧ (counted 16).handler.alerts.length < 16 ∧
      crossings (counted 5) 24576 = 1 ∧ ((counted 5).clock.beats + BitVec.ofNat 32 1).toNat % (counted 5).clock.rate = 0 := by
  unfold Asks Taking
  decide +kernel

/-- R76: a rate of 5 gives the alert at count 15; a rate above 16 is stored as 16. -/
theorem test_reportRate :
    (raiseHighest (counted 5) 24576 60000).handler.alerts = [.beat 15 (some 0) 1 60000] ∧
      answered .reportRate opened 71 [17] = some (.done, [16]) := by decide +kernel

/-! ### Faults, STATUS and resets by request -/

/-- R79, R74, R75: a HALT at the due time of a boundary crosses it by its re-anchor, with the count it had, then sets the count to 0. -/
theorem test_stop_crosses_due_boundary :
    (let t := after_ (exec .halt (told (counted 5) [7, 67]))
     t.handler.alerts = [.beat 15 (some 0) 1 60000] ∧ t.clock.highest = 24576 ∧ t.clock.beats = 0 ∧
       t.clock.period = (counted 5).clock.period) := by decide +kernel

/-- The running song with the Great LATCHED by a CIPHER on key 37. -/
def faulted : State :=
  (running .organLed).withProt { opened.prot with faults := opened.prot.faults.set .great (some (cipherRec .great 37)) }

theorem witness_FaultClearLiftsLatchedFaults :
    Asks opened 96 [4] ∧ 4 ≤ (4 : Byte).toNat ∧ (4 : Byte).toNat ≠ 255 ∧ Asks faulted 96 [byte Division.swell.num] ∧
      latched faulted .swell = false ∧ Asks faulted 96 [255] ∧ latched faulted .great = true ∧
      ((none : Option Division).map Division.num).getD 255 = (255 : Byte).toNat := by
  unfold Asks Taking
  decide +kernel

/-- R156: ALL clears the record; the reply shows four CLEAR records and no override. -/
theorem test_faultClear :
    answered .faultClear faulted 96 [255] = some (.done, [0, 255, 0, 255, 0, 255, 0, 255, 0]) ∧
      answered .faultClear faulted 96 [2] = some (.done, [0, 255, 1, 37, 0, 255, 0, 255, 2]) := by decide +kernel

theorem witness_StatusReportsEveryBlock : Asks sounding 112 [] := by
  unfold Asks Taking
  decide +kernel

/-- Section 11.3: 55 bytes, of which the mode is FOLLOW, the play RUNNING, the clock MOVING, the entry 0, the phrase tick 96. -/
theorem test_status :
    ((answered .status sounding 112 []).map fun r => (r.2.length, r.2.take 7)) = some (55, [2, 19, 0, 96, 0, 0, 0]) := by
  decide +kernel

theorem witness_RestartResetsPlayAndKeepsTheScore :
    Asks sounding 113 [] ∧ sounding.follower.play ≠ .idle ∧ sounding.follower.conf = .locked ∧ Asks opened 113 [] ∧
      opened.follower.play = .idle ∧
      (let s := sounding.withFollower { sounding.follower with conf := .lost }
       s.follower.conf ≠ .locked ∧ s.handler.alerts.length < 16) := by
  unfold Asks Taking
  decide +kernel

theorem witness_ResetAndUnknownRequestsAreAnswered :
    Asks opened 114 [] ∧ Asks opened 0 [1] ∧ Req.ofCode? (0 : Byte).toNat = none ∧ Asks opened 2 [1, 2] ∧
      Req.fits .stopGet [1, 2] = false ∧ (told opened [9]).handler.buffer.head? = some [9] ∧ handlerFree (told opened [9]) = true ∧
      (told opened []).handler.buffer.head? = some [] := by
  unfold Asks Taking
  decide +kernel

/-- R176, R182. -/
theorem test_unknown :
    answered .unknownRequest opened 0 [1] = some (.unknown, []) ∧ answered .unknownRequest opened 2 [1, 2] = some (.unknown, []) ∧
      (after_ (exec .reset (told opened [7, 114]))).handler.resetTaken = true := by decide +kernel

/-! ### The relay path -/

/-- A KEYS frame of the Pedal with its top key, 31. -/
def pedalFrame : List Byte := formFrame 1 0 [0, 0, 0, 128, 0, 0, 0, 0]

/-- `n` pass-through frames wait. -/
def passing (n : Nat) : State :=
  opened.withRelay { opened.relay with downQueue := List.replicate n (.pass [4]), forward := List.replicate n [5] }

/-- The part after a full reset, bypass still asserted. -/
def bypassed : State := opened.withRelay { opened.relay with bypass := true, downReceiving := false }

theorem witness_UpstreamFramesAreTakenByKind :
    (after_ (exec .powerOn opened)).relay.resetting = true ∧ bypassed.relay.bypass = true ∧
    opened.relay.resetting = false ∧ opened.relay.bypass = false ∧
      readFrame pedalFrame = some { kind := 1, addr := Division.pedal.num, payload := [0, 0, 0, 128, 0, 0, 0, 0] } ∧
      (imageOfPayload [0, 0, 0, 128, 0, 0, 0, 0]).toNat < 2 ^ (Division.pedal.top + 1) ∧
      2 ^ (Division.pedal.top + 1) ≤ (imageOfPayload [0, 0, 0, 0, 1, 0, 0, 0]).toNat ∧
      readFrame (formFrame 2 0 [0, 0, 0, 0, 0, 128]) = some { kind := 2, addr := 0, payload := [0, 0, 0, 0, 0, 128] } ∧
      readFrame (formFrame 2 1 [0]) = some { kind := 2, addr := 1, payload := [0] } ∧
      readFrame [1, 2] = none ∧ readFrame (formFrame 4 0 [7, 112]) = some { kind := 4, addr := 0, payload := [7, 112] } ∧
      (0 : Nat) = opened.relay.node.toNat ∧ (told opened []).handler.buffer.length < 4 ∧
      (16 : Nat) ≠ opened.relay.node.toNat ∧ passCount (passing 7).relay.downQueue < 8 ∧
      8 ≤ passCount (passing 8).relay.downQueue ∧
      readFrame (formFrame 6 9 []) = some { kind := 6, addr := 9, payload := [] } := by decide +kernel

/-- R162, R160, R166: a marker is absorbed; a request enters the buffer; the ninth pass-through frame is discarded. -/
theorem test_upstream :
    (let t := after_ (exec (.consoleKeysFrame pedalFrame) opened)
     t.relay.downQueue = [.marker (.keys .pedal)] ∧ t.relay.consoleKeys.pedal = 0x80000000#64 ∧
       (after_ (exec (.consoleKeysFrame pedalFrame) t)).relay.downQueue = [.marker (.keys .pedal)]) ∧
      (after_ (exec (.manageFrame (formFrame 4 0 [7, 112])) opened)).handler.buffer = [[7, 112]] ∧
      (after_ (exec (.manageFrame (formFrame 4 1 [7])) (passing 8))).relay.downQueue = (passing 8).relay.downQueue := by decide +kernel

theorem witness_DownstreamFramesAreForwardedOrDiscarded :
    (after_ (exec .powerOn opened)).relay.resetting = true ∧ bypassed.relay.bypass = true ∧
      (after_ (exec .bypassRelease bypassed)).relay.downReceiving = false ∧ opened.relay.resetting = false ∧
      opened.relay.bypass = false ∧ opened.relay.downReceiving = true ∧ (passing 7).relay.forward.length < 8 ∧ ¬(passing 8).relay.forward.length < 8 ∧
      readFrame (formFrame 5 9 [1]) = some { kind := 5, addr := 9, payload := [1] } ∧
      readFrame (formFrame 6 9 []) = some { kind := 6, addr := 9, payload := [] } ∧ readFrame [5, 0, 0, 0, 0] = none ∧
      readFrame (formFrame 3 1 [1]) = some { kind := 3, addr := 1, payload := [1] } ∧
      readFrame (formFrame 1 1 [1]) = some { kind := 1, addr := 1, payload := [1] } := by
  decide +kernel

/-- The sounding song with the markers of the Great and of the stops, and a frame for another node, in the queue. -/
def marked : State :=
  sounding.withRelay { sounding.relay with
    downQueue := [.marker (.keys .great), .marker .stops, .pass [4]], consoleKeys := sounding.relay.consoleKeys.set .great 2 }

theorem witness_DownstreamTakeMergesConsoleAndPlayback :
    (after_ (exec .powerOn marked)).relay.resetting = true ∧ bypassed.relay.bypass = true ∧
    marked.relay.resetting = false ∧ marked.relay.bypass = false ∧ marked.relay.downLane = none ∧
      marked.relay.downQueue = .marker (.keys .great) :: [.marker .stops, .pass [4]] ∧ marked.follower.mode = .follow ∧
      (marked.relay.consoleKeys.get .great).getLsbD 1 = true := by decide +kernel

/-- R164: console key 1 and playback key 10 in one frame. -/
theorem test_downstreamTake :
    (after_ (exec .downstreamTake marked)).relay.downLane = some (formFrame 1 1 [2, 4, 0, 0, 0, 0, 0, 0]) := by decide +kernel

/-- A forwarded frame, a reply in the slot, a reply waiting with the handler, and an alert. -/
def talking (forward : List (List Byte)) (slot ctl : Option Reply) : State :=
  ((opened.withRelay { opened.relay with forward := forward, slot := slot }).withHandler { opened.handler with
    waiting := some (doneReply 8 67 [0]), alerts := [.pickup true 5], alertsLost := true }).withCtl
      { opened.ctl with phase := .busy, reply := ctl }

/-- `talking` with the alert queue full, at the moment a FRESH pickup goes STALE. -/
def crammed : State :=
  let s := talking [] (some { doneReply 7 112 [] with clearsLost := true }) none
  ((s.withHandler { s.handler with alerts := List.replicate 16 (.pickup true 5), alertsLost := false }).withDetector
    { s.detector with fresh := true, lastArrival := some 55000 }).withPartTime 60000

theorem witness_UpstreamTakesByPrecedence :
    (after_ (exec .powerOn opened)).relay.resetting = true ∧ bypassed.relay.bypass = true ∧
    opened.relay.resetting = false ∧ opened.relay.bypass = false ∧
      (talking [[5]] none none).relay.upLane = none ∧ (talking [[5]] none none).relay.forward = [5] :: [] ∧
      (talking [] (some (doneReply 7 112 [])) none).relay.forward = [] ∧
      (talking [] (some (doneReply 7 112 [])) none).relay.slot = some (doneReply 7 112 []) ∧
      (talking [] (some (doneReply 7 112 [])) none).ctl.reply = none ∧
      (talking [] (some (doneReply 7 112 [])) (some (doneReply 9 37 []))).ctl.reply = some (doneReply 9 37 []) ∧
      (talking [] none none).relay.slot = none ∧ (talking [] none none).handler.alerts = .pickup true 5 :: [] ∧
      (opened.withRelay { opened.relay with upLane := some { bytes := [5], endsInReset := false } }).relay.upLane =
        some { bytes := [5], endsInReset := false } ∧
      16 ≤ crammed.handler.alerts.length ∧ crammed.detector.fresh = true ∧ crammed.detector.lastArrival = some 55000 ∧
      5000 ≤ tdiff crammed.partTime 55000 ∧ crammed.relay.upLane = none ∧ crammed.relay.forward = [] ∧
      crammed.relay.slot.isSome ∧ crammed.ctl.reply = none ∧ opened.handler.alerts.length < 16 := by decide +kernel

/-- R185, R186: the seventeenth alert is lost, and the STATUS reply built before it does not clear the flag. -/
theorem test_fullQueue :
    (let t := after_ (exec .upstreamTake (after_ (exec .staleTimerExpiry crammed)))
     t.handler.alerts.length = 16 ∧ t.handler.alertsLost = true ∧ t.detector.fresh = false) ∧
      (after_ (exec .upstreamTake (talking [] (some { doneReply 7 112 [] with clearsLost := true }) none))).handler.alertsLost =
        false := by decide +kernel

/-- R24, R175: into the emptied slot goes the controller's reply before the handler's. -/
theorem test_upstreamTake :
    ((after_ (exec .upstreamTake (talking [] (some (doneReply 7 112 [])) (some (doneReply 9 37 []))))).relay.slot.map Reply.tag,
      (after_ (exec .upstreamTake (talking [] (some (doneReply 7 112 [])) none))).relay.slot.map Reply.tag) =
      (some 9, some 8) := by decide +kernel

/-! ### Full resets -/

theorem witness_FullResetClearsEveryBlock :
    (opened.withRelay { opened.relay with upLane := some { bytes := [5], endsInReset := true } }).relay.upLane =
      some { bytes := [5], endsInReset := true } := rfl

/-- R169, R170: the straps are latched at the end. -/
theorem test_reset :
    (let t := after_ (exec (.resetEnd 9 false) (after_ (exec .powerOn (running .organLed))))
     t.relay.node = 9 ∧ t.partTime = 0 ∧ t.relay.bypass = true ∧ (planEntry t 63).mask = 3 ∧ t.handler.cause = .power ∧
       t.follower.mode = .off) := by decide +kernel

theorem witness_ResetEndLatchesTheStraps :
    (after_ (exec .resetInput opened)).relay.resetting = true ∧ (after_ (exec .resetInput opened)).relay.bypass = true ∧
      LinesShut (after_ (exec .resetInput opened)) ∧ opened.relay.resetting = false ∧ opened.relay.bypass = false ∧
      State.reset.relay.bypass = true := by
  unfold LinesShut
  decide +kernel

/-- R170: with bypass asserted a console frame and a chest report are not taken, and a frame that waits is not sent. -/
theorem test_bypassed :
    (after_ (exec (.consoleKeysFrame pedalFrame) bypassed)).relay.downQueue = [] ∧
      (after_ (exec (.cipher (formFrame 3 0 [1, 5])) bypassed)).relay.forward = [] ∧
      (after_ (exec .downstreamTake (marked.withRelay { marked.relay with bypass := true }))).relay.downLane = none ∧
      (after_ (exec (.consoleKeysFrame pedalFrame) opened)).relay.downQueue = [.marker (.keys .pedal)] := by decide +kernel

/-! ### Chest reports -/

/-- A chest frame of division number `d`. -/
def chest (d : Nat) (report key : Byte) : List Byte := formFrame 3 d [report, key]

theorem witness_ChestFaultsLatchAndEscalate :
    opened.relay.resetting = false ∧ opened.relay.bypass = false ∧ opened.relay.downReceiving = true ∧ readFrame (chest 4 1 0) = some { kind := 3, addr := 4, payload := [1, 0] } ∧
      readFrame (chest 0 1 31) = some { kind := 3, addr := Division.pedal.num, payload := [1, 31] } ∧
      (cipherRec .pedal 31).key.map Fin.val = (if 31 ≤ Division.pedal.top then some 31 else none) ∧
      (cipherRec .pedal 32).key.map Fin.val = (if 32 ≤ Division.pedal.top then some 32 else none) ∧
      faulted.prot.faults.get .great = some (cipherRec .great 37) ∧ driverRec ≠ cipherRec .great 37 ∧
      faulted.handler.alerts.length < 16 ∧ faulted.prot.faults.get .swell = none ∧ faulted.follower.play ≠ .idle ∧
      (Division.all.any fun e => decide (e ≠ .swell) && (faulted.prot.faults.get e).isSome) = true ∧
      opened.follower.play = .idle ∧ opened.follower.current = none ∧ opened.prot.windLow = false := by decide +kernel

/-- R151, R152, R153: a second division escalates and stops play; the same report again posts nothing. -/
theorem test_chestFaults :
    (let t := after_ (exec (.driver (chest 2 2 0)) faulted)
     t.prot.escalated = true ∧ t.follower.play = .idle ∧ t.clock.state = .stopped ∧ t.relay.forward = [chest 2 2 0] ∧
       t.handler.alerts.length = 1) ∧
      (after_ (exec (.cipher (chest 1 1 37)) faulted)).handler.alerts = [] ∧
      (after_ (exec (.driver (chest 1 2 37)) faulted)).prot.faults.great = some driverRec := by decide +kernel

/-- The sounding song with the wind LOW. -/
def calm : State := sounding.withProt { sounding.prot with windLow := true }

theorem witness_WindReportsOverrideAndLift :
    sounding.relay.resetting = false ∧ sounding.relay.bypass = false ∧ sounding.relay.downReceiving = true ∧ readFrame (chest 9 3 1) = some { kind := 3, addr := 9, payload := [3, 1] } ∧
      sounding.prot.windLow = false ∧ sounding.prot.faults.get .great = none ∧ faulted.prot.faults.get .great ≠ none ∧
      readFrame (chest 9 4 1) = some { kind := 3, addr := 9, payload := [4, 1] } ∧ calm.prot.windLow = true ∧
      sounding.handler.alerts.length < 16 ∧ opened.follower.current = none := by decide +kernel

/-- R154, R155. -/
theorem test_wind :
    (let t := after_ (exec (.windLow (chest 9 3 1)) sounding)
     imagesEmpty t = true ∧ protectionByte t = 31 ∧ t.relay.downQueue = [.marker (.keys .great)] ∧
       protectionByte (after_ (exec (.windOk (chest 9 4 1)) t)) = 0) := by decide +kernel

/-! ### The onset detector -/

/-- A level frame of 4 channels. -/
def levels (q : Byte) (l0 l1 l2 l3 : Nat) : List Byte :=
  let body := q :: (out16 l0 ++ out16 l1 ++ out16 l2 ++ out16 l3)
  body ++ out16 (crc body).toNat

/-- FRESH at sequence number 30, the histories at 100, 200 tu ago. -/
def listening : State :=
  let s := running .organLed
  s.withDetector { s.detector with
    fresh := true, seq := some 30, lastArrival := some 59800
    channels := Vector.replicate 4 { history := List.replicate 9 100, state := .armed } }

/-- `listening` with a gather open since `t`. -/
def gathering (t : PartTime) : State :=
  listening.withDetector { listening.detector with
    gather := some { opened := t, mask := 15, channels := 3, time := t, strength := 300 } }

/-- The song HOLDING at beat 1, heard, silent since `t`. -/
def falling (t : PartTime) : State := (holding 24576).withDetector { listening.detector with cutoff := .falling t }

/-- R90, R95: at 1,999 tu a second channel joins, its rise below the gather's; after 8,000 tu of silence the hold is released. -/
theorem test_gatherAndCutoff :
    (let g := (after_ (exec (.levelFrame (levels 31 100 100 160 100)) (gathering 58001))).detector.gather
     g = some { opened := 58001, mask := 15, channels := 7, time := 58001, strength := 300 }) ∧
      (let t := after_ (exec (.levelFrame (levels 31 100 100 100 100)) (falling 52000))
       t.follower.play = .running ∧ t.detector.cutoff = .quiet) ∧
      (after_ (exec (.levelFrame (levels 31 100 100 100 100)) (falling 52001))).follower.play = .holding := by decide +kernel

theorem witness_LevelFramesFillHistoriesAndFire :
    opened.relay.resetting = false ∧ readLevels true [1, 2] = none ∧ readLevels true (levels 30 480 0 0 0) = none ∧
      readLevels true (levels 30 479 0 0 0) = some (30, [479, 0, 0, 0]) ∧ opened.detector.fresh = false ∧
      listening.detector.fresh = true ∧ listening.detector.seq = some 30 ∧ (29 : Byte) ≠ 30 ∧
      (∀ c : Fin 4, (channel listening c).history ≠ []) ∧ (gathering 58000).detector.gather ≠ none ∧
      opened.detector.gather = none ∧ (opened.handler.alerts.length < 16) ∧ (gathering 58000).detector.cutoff = .quiet ∧
      2000 ≤ tdiff (gathering 58000).partTime 58000 ∧ tdiff (gathering 58001).partTime 58001 < 2000 ∧
      (gathering 58001).detector.gather.map (fun g => (g.mask, g.opened)) = some (15, 58001) ∧
      listening.detector.cutoff = .quiet ∧ (falling 52000).detector.cutoff = .falling 52000 ∧
      (falling 52000).tables.pickup.cutoffHold = 8000 ∧ (falling 52000).tables.pickup.cutoffLevel = 200 ∧
      8000 ≤ tdiff (falling 52000).partTime 52000 ∧ tdiff (falling 52001).partTime 52001 < 8000 ∧
      listening.detector.gather = none ∧ (applicableMask listening).getLsbD 3 = true ∧
      listening.tables.pickup.threshold = 24 ∧ listening.tables.pickup.gate ≤ 160 ∧ 0 < listening.tables.pickup.cutoffLevel := by
  decide +kernel

/-- R82, R88, R91: two missing frames filled; a rise of 60 at the gate fires, one of 23 does not; at 2,000 tu the gather closes, its
strength capped at 255. -/
theorem test_levelFrame :
    (let t := after_ (exec (.levelFrame (levels 33 160 123 100 100)) listening)
     (channel t 0).history = [160, 100, 100, 100, 100, 100, 100, 100, 100] ∧ (channel t 0).state = .refractory 66000 ∧
       (channel t 1).state = .armed ∧
       t.detector.gather = some { opened := 60000, mask := 15, channels := 1, time := 60000, strength := 60 }) ∧
      (after_ (exec (.levelFrame (levels 31 100 100 100 100)) (gathering 58000))).detector.lastOnset.map
        (fun o => o.onset.strength) = some 255 ∧
      (after_ (exec (.levelFrame (levels 31 100 100 100 100)) (gathering 58001))).detector.lastOnset = none ∧
      (after_ (exec (.levelFrame (levels 30 160 123 100 100)) listening)).detector = listening.detector := by decide +kernel

/-- R86, R90, R94: a rise of 60 on the frame that closes a gather opens a new one, its mask the applicable one; the level of 200 on it
makes the cutoff state SOUNDING, and 100 on the frame that joins a gather makes SOUNDING FALLING. -/
theorem test_closingFrame :
    (let t := after_ (exec (.levelFrame (levels 31 100 100 160 200)) (gathering 58000))
     t.detector.gather = some { opened := 60000, mask := 15, channels := 12, time := 60000, strength := 100 } ∧
       t.detector.lastOnset.map (fun o => o.onset.channels) = some 3 ∧ t.detector.cutoff = .sounding) ∧
      (let s := gathering 58001
       let t := after_ (exec (.levelFrame (levels 31 100 100 160 100)) (s.withDetector { s.detector with cutoff := .sounding }))
       t.detector.cutoff = .falling 60000) := by decide +kernel

/-- Key 60 of the Swell went up at `u`. -/
def upAt (u now : PartTime) : State :=
  let s := opened.withPartTime now
  let v := vset (s.sched.keyUps.get .swell) 60 (some u)
  s.withSched { s.sched with keyUps := s.sched.keyUps.set .swell v }

/-- The running song with the anchor 2^30 tu back. -/
def longRun : State := (running .organLed).withClock { (running .organLed).clock with t0 := BitVec.ofInt 32 (60000 - 1073741824) }

theorem witness_TimersExpireAndAnchorsAreRenewed :
    (let s := listening.withPartTime 64800
     s.relay.resetting = false ∧ s.detector.fresh = true ∧ s.detector.lastArrival = some 59800 ∧ 5000 ≤ tdiff s.partTime 59800 ∧
       s.handler.alerts.length < 16) ∧
      tdiff (listening.withPartTime 64799).partTime 59800 < 5000 ∧
      (opened.withDetector { opened.detector with boostUntil := some 0 }).detector.boostUntil = some 0 ∧
      vget ((upAt 5 0).sched.keyUps.get .swell) 60 = some 5 ∧
      longRun.clock.state = .moving ∧ 1073741824 ≤ tdiff longRun.partTime longRun.clock.t0 ∧ opened.clock.state ≠ .moving ∧
      0 < longRun.clock.period ∧ tdiff 60001 longRun.clock.t0 = tdiff 60000 longRun.clock.t0 + tdiff 60001 60000 := by
  decide +kernel

/-- R84, R60. -/
theorem test_timers :
    (let t := after_ (exec .staleTimerExpiry (listening.withPartTime 64800))
     t.detector.fresh = false ∧ t.handler.alerts = [.pickup true 64800]) ∧
      (let t := after_ (exec .anchorRenewal longRun)
       t.clock.t0 = 60000 ∧ t.clock.x0 = position longRun) ∧
      (after_ (exec .boostExpiry (opened.withDetector { opened.detector with boostUntil := some 0 }))).detector.boostUntil = none ∧
      vget ((after_ (exec (.keyUpTimeExpiry .swell 60) (upAt 0 1073741824))).sched.keyUps.get .swell) 60 = none := by
  decide +kernel

/-! ### The beat clock -/

/-- The running song with a stop point at its position. -/
def stopping (k : StopKind) (second : StartKind) : State :=
  (running second).withFollower { (running second).follower with stop := some { pos := 24576, kind := k, reachedAt := none } }

/-- `stopping .wait .choirLed`, the next entry without an expected point. -/
def unsung : State :=
  let silent := { (note 3 0 96 .great [12] false).music with expect := false }
  (stopping .wait .choirLed).withStore { songStore with
    steps := vset songStore.steps 2 { note 3 0 96 .great [12] false with music := silent } }

/-- The song at part time 60,000, or later by `late`, with a tempo of 45,000 tu pending for the boundary of position 24,576. -/
def quickening (s : State) (late : PartTime) : State :=
  (s.withPartTime (60000 + late)).withClock { s.clock with pendingTempo := some 45000 }

/-- Every step of `unsung` has a duration above 0. -/
theorem unsung_durations (n : StepNo) : 0 < (stepRec unsung n).music.duration := by
  show 0 < (vget (vset songStore.steps 2 _) n).music.duration
  rw [vget_vset]
  split_ifs
  · decide
  · exact songStore_durations n

theorem witness_BoundariesAreCountedAndStopPointsHold :
    (∀ n, 0 < (stepRec unsung n).music.duration) ∧
    ((quickening (running .organLed) 90000).relay.resetting = false ∧
      (quickening (running .organLed) 90000).clock.state = .moving ∧
      nextBoundary (quickening (running .organLed) 90000) ≤ position (quickening (running .organLed) 90000) ∧
      (quickening (running .organLed) 90000).clock.pendingTempo = some 45000 ∧
      (quickening (running .organLed) 90000).follower.stop = none) ∧
    ((quickening (stopping .end_ .organLed) 0).relay.resetting = false ∧
      (quickening (stopping .end_ .organLed) 0).clock.state = .moving ∧
      nextBoundary (quickening (stopping .end_ .organLed) 0) ≤ position (quickening (stopping .end_ .organLed) 0) ∧
      (quickening (stopping .end_ .organLed) 0).clock.pendingTempo = some 45000 ∧
      clampPeriod (quickening (stopping .end_ .organLed) 0) 45000 = 45000 ∧
      playing (quickening (stopping .end_ .organLed) 0) = true ∧
      (quickening (stopping .end_ .organLed) 0).follower.stop = some { pos := 24576, kind := .end_, reachedAt := none } ∧
      (24576 : Int) ≤ rawAt { (quickening (stopping .end_ .organLed) 0).clock with
        t0 := reachTime (quickening (stopping .end_ .organLed) 0) 24576, x0 := 24576, period := 45000 } 60000) ∧
    (running .organLed).relay.resetting = false ∧ (running .organLed).clock.state = .moving ∧
      nextBoundary (running .organLed) = 24576 ∧ position (running .organLed) = 24576 ∧
      (stopping .hold .organLed).follower.stop = some { pos := 24576, kind := .hold, reachedAt := none } ∧
      rawAt (stopping .hold .organLed).clock (stopping .hold .organLed).partTime = 24576 ∧
      (stopping .hold .organLed).follower.play = .running ∧ (stopping .hold .organLed).follower.current = some 0 ∧
      (stopping .hold .organLed).follower.next = none ∧
      nextIndex (stopping .wait .choirLed) = some 1 ∧ (stopping .wait .choirLed).follower.next = none ∧
      (planEntry (stopping .wait .choirLed) 1).start = .choirLed ∧ (stopping .wait .choirLed).follower.mode ≠ .steady ∧
      hasPoints (stopping .wait .choirLed) 1 = true ∧ hasPoints unsung 1 = false ∧ nextIndex unsung = some 1 ∧
      unsung.follower.stop = some { pos := 24576, kind := .wait, reachedAt := none } ∧ unsung.follower.next = none ∧
      (planEntry unsung 1).start = .choirLed ∧ involved unsung (planEntry unsung 1).list = false ∧
      (planEntry unsung 1).tempo = none ∧ phraseLength unsung (planEntry unsung 1).list ≠ 0 ∧ (stopping .end_ .organLed).clock.state = .moving := by
  refine ⟨unsung_durations, ?_⟩
  decide +kernel

/-- R65, R61: with the boundary 90,000 tu late the position on the new line is 24,576 + 2 beats, and the 2 further boundaries are counted; a stop
point at the boundary holds the clock, and the hold is told of. -/
theorem test_pendingTempo :
    (let t := after_ (exec .beatBoundary (quickening (running .organLed) 90000))
     t.clock.t0 = 60000 ∧ t.clock.x0 = 24576 ∧ t.clock.period = 45000 ∧ t.clock.pendingTempo = none ∧ t.clock.highest = 73728 ∧
       t.clock.beats = 3 ∧ t.clock.state = .moving) ∧
      (let t := after_ (exec .beatBoundary (quickening (stopping .hold .organLed) 0))
       t.clock.state = .held ∧ t.clock.x0 = 24576 ∧ t.clock.beats = 1 ∧ t.follower.play = .holding ∧
         t.follower.timer = some 240000) := by decide +kernel

/-- R74, R68, R117, R77: one boundary is counted; a hold of 4 beats at 60,000 expires 240,000 tu on; a wait begins. -/
theorem test_clockEvents :
    (let t := after_ (exec .beatBoundary (running .organLed))
     t.clock.beats = 1 ∧ t.clock.highest = 24576 ∧ t.handler.alerts = []) ∧
      (let t := after_ (exec .stopPointReached (stopping .hold .organLed))
       t.follower.play = .holding ∧ t.clock.state = .held ∧ t.follower.timer = some 300000 ∧
         t.handler.alerts = [.hold (some 0) 96 60000]) ∧
      (after_ (exec .stopPointReached (stopping .end_ .organLed))).follower.play = .ending ∧
      (let t := after_ (exec .stopPointReached (stopping .wait .choirLed))
       t.follower.play = .waiting ∧ t.follower.current = some 1 ∧ t.clock.x0 = 24576) ∧
      (let t := after_ (exec .stopPointReached unsung)
       t.follower.play = .running ∧ t.follower.current = some 1 ∧ t.clock.state = .moving) := by decide +kernel

/-- The song carried in one move past its phrase end to a fermata of the engaged next entry, 20 ticks in. -/
def overshot : State :=
  let s := engagedSong.withStore { songStore with
    steps := vset (vset songStore.steps 1 (note 2 96 96 .swell [20] false)) 2 (note 3 0 20 .great [12] true) }
  (s.withPartTime 140000).withFollower { s.follower with stop := some { pos := 54272, kind := .hold, reachedAt := none } }

/-- R104, R117: the phrase end is passed first, and the hold is the next entry's. -/
theorem test_holdBeyondThePhraseEnd :
    (let t := after_ (exec .stopPointReached overshot)
     t.follower.play = .holding ∧ t.follower.current = some 1 ∧ t.follower.origin = 49152 ∧ t.clock.x0 = 54272 ∧
       t.clock.state = .held ∧ t.follower.stop.map StopPoint.pos = some 54272 ∧
       t.handler.alerts = [.phrase 1 .organLed .organ 140000, .hold (some 1) 20 140000]) := by decide +kernel

theorem witness_DueTimesAndCorrections :
    0 < (running .organLed).clock.period ∧ 24576 ≤ (running .organLed).clock.period ∧
      ceilDiv ((24576 - (running .organLed).clock.x0) * ((running .organLed).clock.period : Int)) 24576 = 60000 ∧
      opened.clock.state = .stopped ∧ (running .organLed).clock.state ≠ .stopped ∧ (running .organLed).follower.stop = none ∧
      (stopping .end_ .organLed).follower.stop = some { pos := 24576, kind := .end_, reachedAt := none } ∧
      waiting.clock.state = .held ∧ waiting.follower.stop.map StopPoint.pos = some waiting.clock.x0 ∧
      (running .organLed).clock.pendingTempo = none ∧
      (running .organLed).tables.follow.pmin ≤ (running .organLed).tables.follow.pmax ∧
      (running .organLed).clock.state = .moving ∧
      (let s := running .organLed
       let line (e : Int) (p : Nat) : Clock :=
         { s.clock with t0 := 59000, x0 := rawAt s.clock 59000 + phasePart s.tables.follow e, period := p }
       let back := position s - (s.tables.follow.j : Int) * 256
       back ≤ rawAt (line 0 60000) s.partTime ∧ rawAt (line (-24576) 120000) s.partTime < back) := by decide +kernel

/-- R58: the position 24,576 is due now; at END it stays due, at a hold not. -/
theorem test_due :
    dueIn (running .organLed) 24576 = some 0 ∧ dueIn (stopping .end_ .organLed) 24576 = some 0 ∧
      dueIn (stopping .hold .organLed) 24576 = none ∧ dueIn (stopping .hold .organLed) 24575 = some (-2) ∧
      dueIn (stopping .end_ .organLed) 24577 = none := by decide +kernel

/-! ### The follower -/

/-- A point of entry 0 at `x`. -/
def point (x : Pos) : Point := { pos := x, width := 24, entry := 0, steps := [1] }

/-- The running song with open points at the positions `xs`. -/
def pointed (xs : List Pos) : State :=
  (running .organLed).withFollower { (running .organLed).follower with window := xs.map point, pointsCurrent := some 1 }

theorem witness_WindowPointsOpenCloseAndMatch :
    (pointed []).relay.resetting = false ∧ playing (pointed []) = true ∧
      (remainingPoints (pointed [])).head? = some { point 24576 with width := (pointed []).tables.follow.w } ∧
      24576 - 24 * 256 ≤ position (pointed []) ∧ position (pointed []) ≤ 24576 + 24 * 256 ∧ (pointed []).follower.mode ≠ .steady ∧
      (pointed [0, 1, 2, 3, 4, 5, 6]).follower.window.length < 8 ∧ (pointed [0, 1, 2, 3, 4, 5, 6, 7]).follower.window.length = 8 ∧
      (pointed [18431, 18432]).follower.window.find?
        (fun q => decide (q.pos + (q.width : Int) * 256 < position (pointed [18431, 18432]))) = some (point 18431) ∧
      (pointed [18431]).follower.conf ≠ .lost ∧ (pointed [18431]).follower.counter + 8 ≤ 255 ∧
      matchFor (pointed [18432, 30720]) 24576 = some (point 18432) ∧ matchFor (pointed [18431]) 24576 = none := by
  decide +kernel

/-- R106, R110: the point whose window ended at 24,575 closes at 24,576 with 8 on the counter; the other stays. -/
theorem test_points :
    (let t := after_ (exec .pointClose (pointed [18431, 18432]))
     t.follower.window = [point 18432] ∧ t.follower.counter = 8) ∧
      (after_ (exec .pointOpen (pointed [0, 1, 2, 3, 4, 5, 6, 7]))).follower.window.map Point.pos =
        [1, 2, 3, 4, 5, 6, 7, 24576] := by decide +kernel

/-- `s` with open points at `xs` and none to come, its stop point, if any, reached at 60,000, its confidence as given. -/
def tuned (s : State) (xs : List Pos) (c : Conf) (counter run : Nat) : State :=
  s.withFollower { s.follower with
    window := xs.map point, pointsCurrent := some 97, conf := c, counter := counter, run := run
    stop := s.follower.stop.map fun st => { st with reachedAt := some 60000 } }

/-- An onset of two channels at `t`. -/
def onset (t : PartTime) : Onset := { time := t, strength := 60, channels := 3 }

theorem nonePassed_iff (s : State) (w : List Point) (x : Pos) :
    NonePassed s w x ↔ (∀ q ∈ w, x ≤ q.pos + (q.width : Int) * 256) ∧
      ((remainingPoints s).head?.all fun q => decide (x < q.pos - (q.width : Int) * 256)) = true := by
  cases h : (remainingPoints s).head? <;> simp [NonePassed, h]

theorem witness_OnsetsAreMatchedAndCounted :
    ¬Takes ((pointed []).withFollower { (pointed []).follower with mode := .steady }) (onset 60000) ∧
      (holding 24576).follower.stop = some { pos := 24576, kind := .hold, reachedAt := some 1 } ∧
      (Takes (pointed [18431]) (onset 60000) ∧ playing (pointed [18431]) = true ∧ onsetPosition (pointed [18431]) 60000 = 24576 ∧
        matchFor (pointed [18431]) 24576 = none ∧ (pointed [18431]).follower.conf ≠ .lost) ∧
      (∀ c ∈ [(255, Conf.doubtful), (40, .lost)], let s := tuned (running .organLed) [] c.2 c.1 0
        Takes s (onset 60000) ∧ playing s = true ∧ matchFor s 24576 = none ∧ s.follower.finish = .none) ∧
      (let s := tuned waiting [] .doubtful 255 0
       Takes s (onset 59999) ∧ s.follower.play = .waiting ∧ afterReach s 59999 = false ∧ matchFor s 0 = none) ∧
      (let s := tuned (running .organLed) [24576] .locked 5 0
       let c := correct s 60000 0 true
       Takes s (onset 60000) ∧ matchFor s 24576 = some (point 24576) ∧ (point 24576).steps.Nodup ∧ s.clock.state = .moving ∧
         c.clock.state = .moving ∧ NonePassed s [] (position c)) ∧
      (let s := tuned (holding 24576) [24576] .doubtful 130 0
       Takes s (onset 59999) ∧ afterReach s 59999 = false ∧ onsetPosition s 59999 = 24576 ∧
         matchFor s 24576 = some (point 24576) ∧ s.clock.state = .held ∧ s.follower.stop.map StopPoint.pos = some s.clock.x0) ∧
      (∀ r ∈ [6, 7], let s := tuned (running .organLed) [24576] .lost 255 r
       let c := reanchor s 60000 24576 s.clock.period
       matchFor s 24576 = some (point 24576) ∧ NonePassed s [] (position s) ∧ playing s = true ∧ c.clock.state = .moving ∧
         NonePassed s [] (position c)) ∧
      ∀ b ∈ [(holding 24576, (24576 : Pos)), (waiting, 0)], let s := tuned b.1 [b.2] .lost 255 7
       let c := reanchor (releaseStop s) 59999 b.2 s.clock.period
       Takes s (onset 59999) ∧ afterReach s 59999 = false ∧ matchFor s b.2 = some (point b.2) ∧ s.clock.state ≠ .stopped ∧
         playing (releaseStop s) = true ∧ c.clock.state = .moving ∧
         NonePassed (releaseStop s) (pointsAbove (releaseStop s).follower.window b.2) (position c) := by
  simp only [nonePassed_iff]
  unfold Takes
  and_intros <;> decide +kernel

/-- R107 to R113: a match 4 ticks early; an onset on no point; the eighth match of a recovery, playing and in a hold. -/
theorem test_onsets :
    (let s := tuned (running .organLed) [23552, 48128] .locked 5 0
     let t := deliverOnset s (onset 60000)
     t.follower.window.map Point.pos = [48128] ∧ t.follower.counter = 4 ∧ (stepRec t 1).deviation = some (-1024) ∧
       (stepRec t 1).matchCount = 1) ∧
      (deliverOnset (tuned (running .organLed) [] .locked 127 0) (onset 60000)).handler.alerts.length = 1 ∧
      (let t := deliverOnset (tuned (running .organLed) [24576] .lost 255 7) (onset 60000)
       t.follower.conf = .locked ∧ t.follower.counter = 0 ∧ t.handler.alerts = [.confidence .locked 0 60000]) ∧
      (let t := deliverOnset (tuned (holding 24576) [24576] .lost 255 7) (onset 59999)
       t.follower.play = .running ∧ t.follower.conf = .locked ∧ t.clock.state = .moving) := by decide +kernel

/-- The list controller at work on list `l`. -/
def busyOn (s : State) (l : ListNo) : State :=
  s.withCtl { s.ctl with phase := .busy, work := some (.length l 96), cmd := { s.ctl.cmd with target := some l } }

theorem witness_OnsetsAndCutoffsEndWaitsAndHolds :
    (let s := tuned waiting [] .locked 5 0
     let u := beginAt s 0 0
     let c := reanchor u 60000 0 u.clock.period
     Takes s (onset 60000) ∧ afterReach s 60000 = true ∧ readable s 0 = true ∧
       (pointsFrom s 0 0 0).map (fun q => (q.pos, q.steps)) = [(0, [0]), (24576, [1])] ∧ c.clock.state = .moving ∧
       ∀ q ∈ (pointsFrom s 0 0 0).head?, NonePassed (walkPast u q) (pointsAbove u.follower.window q.pos) (position c)) ∧
      readable (waiting.withFollower { waiting.follower with lockSet := [] }) 0 = false ∧
      (let s := tuned (holding 24576) [24576] .locked 5 0
       let u := formStop (s.withFollower { s.follower with play := .running, timer := none, released := [24576] })
       let c := reanchor u 60000 24576 u.clock.period
       Takes s (onset 60000) ∧ afterReach s 60000 = true ∧ s.clock.state = .held ∧
         pointInCurrent s 24576 = some (point 24576) ∧ c.clock.state = .moving ∧
         NonePassed (walkPast u (point 24576)) (pointsAbove u.follower.window 24576) (position c)) ∧
      (let s := tuned (holding 49152) [] .locked 5 0
       pointInCurrent s 49152 = none ∧ atPhraseEnd s 49152 = true ∧ nextIndex s = some 1 ∧ nextReadable s 1 = true ∧
         nextReadable (busyOn s 3) 1 = false ∧ (pointInNext s 1 49152).map Point.pos = some 49152 ∧
         (planEntry s 1).tempo = none ∧
         ∀ q ∈ pointInNext s 1 49152,
           let u := withPlay (beginAt (applyEntryTempo (makeCurrent (dropHold s) 1) 1) (onsetOrigin s 49152) 49152) .running
           let c := reanchor u 60000 49152 u.clock.period
           q.steps.Nodup ∧ c.clock.state = .moving ∧
             NonePassed (walkPast u q) (pointsAbove u.follower.window 49152) (position c)) ∧
      (let s := (holding 49152).withStore unsung.store
       pointInNext s 1 49152 = none ∧ nextReadable s 1 = true) ∧
      (let s := tuned (holding 24576) [] .locked 5 0
       pointInCurrent s 24576 = none ∧ atPhraseEnd s 24576 = false ∧ s.clock.x0 ≤ s.clock.highest ∧ s.follower.finish = .none) ∧
      (pointInCurrent lastHold 49152 = none ∧ atPhraseEnd lastHold 49152 = true ∧ nextIndex lastHold = none) ∧
      ((holding 24576).follower.mode = .follow ∧ (holding 24576).clock.x0 < 49152 ∧ phraseEnd (holding 24576) = some 49152 ∧
        (holding 49152).clock.x0 = 49152 ∧ nextIndex (holding 49152) = some 1 ∧ phraseEnd lastHold = some 49152) := by
  simp only [nonePassed_iff]
  unfold Takes
  and_intros <;> decide +kernel

/-- R95, R115, R118, R119: an onset syncs the wait, releases the hold to a point 2 ticks on, starts the next entry at the phrase end;
a cutoff at the end of the last phrase goes to ENDING. -/
theorem test_endings :
    (let t := deliverOnset (tuned waiting [] .locked 5 0) (onset 60000)
     t.follower.play = .running ∧ t.follower.counter = 4 ∧ t.handler.alerts = [.phrase 0 .choirLed .synced 60000]) ∧
      (let t := deliverOnset (tuned (holding 24576) [25088] .locked 5 0) (onset 60000)
       t.follower.play = .running ∧ t.clock.x0 = 25088 ∧ (stepRec t 1).deviation = some 512) ∧
      (let t := deliverOnset (tuned (holding 49152) [] .locked 5 0) (onset 60000)
       t.follower.current = some 1 ∧ t.follower.play = .running ∧ t.follower.origin = 49152 ∧ (stepRec t 2).deviation = some 0) ∧
      (deliverCutoff lastHold { completed := 60000, belowSince := 52000 }).follower.play = .ending ∧
      (takeHeld ((waiting.withFollower { waiting.follower with mode := .steady, heldOnsets := [onset 60000] }))).follower.play =
        .waiting := by decide +kernel

/-- The song at the end of entry 0's phrase, its hold released. -/
def atEnd : State :=
  ((running .organLed).withPartTime 120000).withFollower { (running .organLed).follower with released := [49152] }

/-- `s` with entry 1's registration set 3, of stop 5 alone, and entry 0's switch made. -/
def drawing (s : State) : State :=
  (s.withTables { s.tables with
    plan := vset s.tables.plan 1 { planEntry s 1 with registration := some 3 }, sets := vset s.tables.sets 3 32 }).withSched
      { s.sched with switched := some 0 }

/-- `s` with the walk of the current entry past the two steps of list 2. -/
def walked (s : State) : State := s.withSched { s.sched with walkCurrent := some 2 }

/-- The song in GAP at its origin. -/
def inGap : State :=
  (running .organLed).withFollower { (running .organLed).follower with play := .gap, origin := 24576 }

/-- The running song without its fermata. -/
def noHold : State :=
  (running .organLed).withStore { songStore with steps := vset songStore.steps 1 (note 2 96 96 .swell [20] false) }

theorem witness_EntriesFollowOneAnother :
    inGap.follower.play = .gap ∧ inGap.follower.origin ≤ position inGap ∧ atEnd.relay.resetting = false ∧
      atEnd.follower.current = some 0 ∧ nextIndex atEnd = some 1 ∧ phraseEnd atEnd = some 49152 ∧
      atEnd.follower.play = .running ∧ atEnd.clock.state = .moving ∧ position atEnd = 49152 ∧ atEnd.follower.stop = none ∧
      (planEntry atEnd 1).start ≠ .choirLed ∧ noHold.follower.next = none ∧ phraseEnd noHold = some 49152 ∧
      holdsOf noHold 0 0 = [] ∧ gapOf (planEntry noHold 1) = 0 ∧ 49152 ≤ position noHold + 49152 ∧
      involved atEnd (planEntry atEnd 1).list = false ∧
      (planEntry (drawing atEnd) 1).registration = some 3 ∧ switchMade (drawing atEnd) 1 = false ∧
      noActions (drawing atEnd) 0 = true ∧ walkFinished (walked noHold) 0 (walked noHold).sched.walkCurrent = true := by
  decide +kernel

/-- R47, R143: the switch of an entry is made on its becoming current, and on its being engaged only when the walk before it is finished. -/
theorem test_switchAtTheStart :
    (let t := after_ (exec .phraseEndReached (drawing atEnd))
     t.sched.active = some 3 ∧ t.sched.stopImage = 32 ∧ t.relay.downQueue = [.marker .stops] ∧ t.follower.lockSet = [3]) ∧
      (after_ (exec .nextEntryEngage (drawing (walked noHold)))).sched.active = some 3 ∧
      (after_ (exec .nextEntryEngage (drawing noHold))).sched.active = none := by decide +kernel

/-- R104, R44. -/
theorem test_entries :
    (after_ (exec .gapOriginReached inGap)).follower.play = .running ∧
      (let t := after_ (exec .phraseEndReached atEnd)
       t.follower.current = some 1 ∧ t.follower.origin = 49152 ∧ t.handler.alerts = [.phrase 1 .organLed .organ 120000]) ∧
      (let t := after_ (exec .nextEntryEngage noHold)
       t.follower.next = some { start := .organLed, origin := 49152 } ∧ t.follower.lockSet = [2, 3]) := by decide +kernel

/-- The song in ENDING. -/
def ending : State :=
  let s := holding 49152
  s.withFollower { s.follower with play := .ending, stop := some { pos := 49152, kind := .end_, reachedAt := some 1 } }

theorem witness_TimersAndSilenceMovePlayOn :
    (∀ n, 0 < (stepRec waiting n).music.duration) ∧
    waiting.relay.resetting = false ∧ waiting.follower.timer = some 60000 ∧ 0 ≤ tdiff waiting.partTime 60000 ∧
      waiting.follower.play = .waiting ∧ waiting.clock.state = .held ∧ waiting.follower.current = some 0 ∧
      waiting.follower.next = none ∧ waiting.clock.x0 ≤ waiting.clock.highest ∧ readable waiting 0 = true ∧
      phraseLength waiting 2 ≠ 0 ∧ waiting.detector.fresh = false ∧
      (holding 24576).follower.play = .holding ∧ (holding 24576).follower.timer = some 60000 ∧
      phraseEnd (holding 24576) = some 49152 ∧ phraseEnd lastHold = some 49152 ∧ lastHold.clock.x0 = 49152 ∧
      nextIndex lastHold = none ∧ (holding 49152).follower.timer = some 60000 ∧ phraseEnd (holding 49152) = some 49152 ∧
      nextIndex (holding 49152) = some 1 ∧ ending.follower.play = .ending ∧ silent ending = true ∧
      (sounding.withFollower { sounding.follower with pendingMode := some .rehearse }).follower.pendingMode = some .rehearse ∧
      imagesEmpty sounding = false ∧ imagesEmpty (running .organLed) = true := by
  refine ⟨songStore_durations, ?_⟩
  decide +kernel

/-- R116, R118, R121, R124. -/
theorem test_playOn :
    (let t := after_ (exec .leadInExpiry waiting)
     t.follower.play = .running ∧ t.follower.counter = 0 ∧ t.handler.alerts = [.phrase 0 .choirLed .fellBack 60000]) ∧
      (after_ (exec .leadInExpiry (waiting.withDetector { waiting.detector with fresh := true }))).follower.counter = 8 ∧
      (after_ (exec .holdTimerExpiry (holding 24576))).follower.play = .running ∧
      (after_ (exec .holdTimerExpiry lastHold)).follower.play = .ending ∧
      (let t := after_ (exec .holdTimerExpiry (holding 49152))
       t.follower.current = some 1 ∧ t.follower.origin = 49152 ∧ t.clock.state = .moving) ∧
      (let t := after_ (exec .endingToIdle ending)
       t.follower.play = .idle ∧ t.handler.alerts = [.ended (some 0) 0 60000]) ∧
      (let s := running .organLed
       (after_ (exec .pendingModeEffect (s.withFollower { s.follower with pendingMode := some .rehearse }))).follower.mode =
         .rehearse) := by decide +kernel

/-! ### The scheduler -/

/-- The running song with 47 actions in the queue of the Great. -/
def crowded : State :=
  let a : Action := { kind := .release, pos := 0, step := 9, entry := 0, keys := [], heldOver := [], relPos := 0, waitOn := none }
  let s := running .organLed
  s.withSched { s.sched with queues := s.sched.queues.set .great (List.replicate 47 a) }

/-- The running song at its beginning, an override of the Great just lifted after the walk had passed both steps. -/
def lifted : State :=
  let s := (running .organLed).withPartTime 0
  s.withSched { s.sched with
    walkCurrent := some 2
    catchUp := s.sched.catchUp.set .swell (some { liftPos := 0, parts := [{ entry := 0, place := 0, limit := 2 }] }) }

/-- `crowded` at its beginning, the placement walk waiting at step 0 for room. -/
def stalled : State := after_ (exec (.stepPlace .current) (crowded.withPartTime 0))

theorem witness_WalksDealWithSteps :
    (lifted.relay.resetting = false ∧ lifted.sched.stalled = none ∧ walkReady (running .organLed) .next = none ∧
        catchHead lifted .great = none ∧ walkReady ((running .organLed).withPartTime 0) .current = some (0, 0, 0, 0) ∧
        walksWait ((running .organLed).withPartTime 0) = false) ∧
      ((queue (crowded.withPartTime 0) .great).length = 47 ∧ overridden crowded .great = false ∧
        walkReady (crowded.withPartTime 0) .current = some (0, 0, 0, 0) ∧ walksWait (crowded.withPartTime 0) = false ∧
        position (crowded.withPartTime 0) < releasePos crowded 0 0 0) ∧
      (walkReady stalled .current = some (0, 0, 0, 0) ∧ stalledAt stalled false 0 0 = true ∧ walksWait stalled = true) ∧
      lifted.sched.catchUp.get .swell = some { liftPos := 0, parts := [{ entry := 0, place := 0, limit := 2 }] } ∧
      catchHead lifted .swell = some (0, 0, 1, 1) ∧ overridden lifted .swell = false ∧ walksWait lifted = false ∧
      (stepRec lifted 1).music.tie = false ∧ overridden faulted .great = true ∧
      walkReady faulted .current = some (0, 0, 0, 0) ∧
      releasePos (running .organLed) 0 0 0 ≤ position (running .organLed) ∧ ([3, 4] : List Key).Nodup := by
  and_intros <;> decide +kernel

/-- The running song at its beginning, step 0 a tie step, with a waiting release of step 9 at position 0 that carries key 10 alone. -/
def tying : State :=
  let s := (running .organLed).withPartTime 0
  let m := { (note 2 0 96 .great [10, 14] false).music with tie := true }
  let r : Action := { kind := .release, pos := 0, step := 9, entry := 0, keys := [10], heldOver := [], relPos := 0, waitOn := none }
  (s.withStore { songStore with steps := vset songStore.steps 0 { note 2 0 96 .great [10, 14] false with music := m } }).withSched
    { s.sched with queues := s.sched.queues.set .great [r] }

/-- R133: key 10 is held over from step 9, whose release goes; key 14 is struck; both are in the new release. -/
theorem test_tie :
    walkReady tying .current = some (0, 0, 0, 0) ∧ (stepRec tying 0).music.tie = true ∧ walksWait tying = false ∧
      (queue (after_ (exec (.stepPlace .current) tying)) .great).map
        (fun a => (a.kind, a.pos, a.keys, a.heldOver.map fun h => (h.key, h.step))) =
          [(.press, 0, [14], [(10, 9)]), (.release, 24576, [10, 14], [(10, 9)])] := by decide +kernel

/-- R132: at the release position the walk still waits; with two places free it finds step 0 too late, and goes on. -/
theorem test_stalled :
    stalled.sched.walkCurrent = some 0 ∧ stalled.sched.stalled = some { entry := 0, step := 0, division := .great, catchUp := false } ∧
      (let t := after_ (exec (.stepPlace .current) (stalled.withPartTime 60000))
       t.sched.walkCurrent = some 0 ∧ t.sched.stalled.isSome ∧ (stepRec t 0).sounding = .notYet) ∧
      (let s := stalled.withPartTime 60000
       let t := after_ (exec (.stepPlace .current) (withQueue s .great ((queue s .great).drop 1)))
       t.sched.walkCurrent = some 1 ∧ t.sched.stalled = none ∧ (stepRec t 0).sounding = .dropped) := by decide +kernel

/-- R132: step 0 is placed at position 0, and found too late at 24,576. -/
theorem test_stepPlace :
    (let t := after_ (exec (.stepPlace .current) ((running .organLed).withPartTime 0))
     (queue t .great).map (fun a => (a.kind, a.pos, a.keys)) =
       [(.press, 0, [10, 14]), (.release, 24576, [10, 14])] ∧ t.sched.walkCurrent = some 1) ∧
      (stepRec (after_ (exec (.stepPlace .current) (running .organLed))) 0).sounding = .dropped ∧
      (queue (after_ (exec (.catchUpPlace .swell) lifted)) .swell).map (fun a => (a.kind, a.pos)) =
        [(.press, 24576), (.release, 49152)] := by decide +kernel

/-- An action of step 0 on the Great. -/
def act (k : ActKind) (x y : Pos) : Action :=
  { kind := k, pos := x, step := 0, entry := 0, keys := [10, 14], heldOver := [], relPos := y, waitOn := none }

/-- The running song with queue `q` of the Great, key 10 up since `u`. -/
def queued (q : List Action) (u : Option PartTime) : State :=
  let s := running .organLed
  s.withSched { s.sched with
    queues := s.sched.queues.set .great q, keyUps := s.sched.keyUps.set .great (vset (s.sched.keyUps.get .great) 10 u) }

/-- A press due now and its release, key 10 held 15 times. -/
def full : State :=
  let s := queued [act .press 0 24577, act .release 24577 24577] none
  s.withSched { s.sched with holds := s.sched.holds.set .great (vset (s.sched.holds.get .great) 10 15) }

theorem witness_PressesAreDroppedHeldBackOrIssued :
    (queued [act .press 0 24576] none).relay.resetting = false ∧
      pressFirst (queued [act .press 0 24576] none) .great = some (act .press 0 24576) ∧
      (act .press 0 24576).relPos ≤ position (queued [act .press 0 24576] none) ∧
      pressFirst (queued [act .press 0 24577] (some 57001)) .great = some (act .press 0 24577) ∧
      position (queued [act .press 0 24577] (some 57001)) < (act .press 0 24577).relPos ∧
      vget ((queued [act .press 0 24577] (some 57001)).sched.keyUps.get .great) 10 = some 57001 ∧
      tdiff (queued [act .press 0 24577] (some 57001)).partTime 57001 <
        ((queued [act .press 0 24577] (some 57001)).tables.gap : Int) ∧
      ¬tdiff (queued [act .press 0 24577] (some 57000)).partTime 57000 <
        ((queued [act .press 0 24577] (some 57000)).tables.gap : Int) ∧
      partners (act .press 0 24576) (act .release 24576 24576) = true ∧
      holdsOver 10 0 0 (act .release 24576 24576) = false ∧
      holdsOver 10 0 0 { act .press 1 30000 with heldOver := [{ key := 10, step := 0, entry := 0 }] } = true ∧
      (act .press 0 24577).keys.Nodup ∧ 15 ≤ vget (full.sched.holds.get .great) 10 ∧
      (act .press 0 24577).entry.val = 0 ∧ pressFirst full .great = some (act .press 0 24577) ∧ vget ((queued [act .press 0 24577] none).sched.holds.get .great) 10 < 15 := by
  decide +kernel

/-- R137, R138, R139: dropped at its release; waiting 2,999 tu after a key-up; issued LATE, 60,000 tu past its due time. -/
theorem test_pressIssue :
    (stepRec (after_ (exec (.pressIssue .great) (queued [act .press 0 24576] none))) 0).sounding = .dropped ∧
      (queue (after_ (exec (.pressIssue .great) (queued [act .press 0 24577] (some 57001)))) .great).map Action.waitOn =
        [some 57001] ∧
      (let t := after_ (exec (.pressIssue .great) (queued [act .press 0 24577] (some 57000)))
       queue t .great = [] ∧ playImage t .great = 0x4400#64 ∧ (stepRec t 0).sounding = .late ∧
         t.relay.downQueue = [.marker (.keys .great)] ∧ t.detector.boostUntil = some 60000) ∧
      (let t := after_ (exec (.pressIssue .great) full)
       vget (t.sched.holds.get .great) 10 = 15 ∧ vget (t.sched.holds.get .great) 14 = 1 ∧
         (queue t .great).map Action.keys = [[14]]) ∧
      queue (after_ (exec (.pressIssue .great) (queued [act .press 0 24576, act .release 24576 24576] none))) .great = [] := by
  decide +kernel

/-- The running song with a release of the Great at position 25,000 whose partner press, queued or not, stands before it, and a later press
of key 10 by another step at position `x`. -/
def pulled (partner : Bool) (x : Pos) : State :=
  queued ((if partner then [act .press 24999 25000] else []) ++
    [act .release 25000 25000, { act .press x (x + 100) with step := 7 }]) none

/-- R135, R136: at position 24,576 a release at 25,000 is not yet due; pulled 3,000 tu ahead of a press due 2,999 tu on it is, and of one due
3,001 tu on it is not; with its partner queued it is held. -/
theorem test_releasePulled :
    releaseFirst (pulled false 25804) .great = some (act .release 25000 25000) ∧
      dueIn (pulled false 25804) 25804 = some 2999 ∧ dueIn (pulled false 25805) 25805 = some 3001 ∧
      releaseFirst (pulled false 25805) .great = none ∧ releaseFirst (pulled true 25804) .great = none := by decide +kernel

/-- A release due now, its keys held. -/
def closing : State :=
  let s := queued [act .release 24576 24576] none
  s.withSched { s.sched with
    holds := s.sched.holds.set .great (vset (vset (s.sched.holds.get .great) 10 1) 14 2) }

/-- `closing` with entry 1 engaged. -/
def following : State :=
  closing.withFollower { closing.follower with next := some { start := .organLed, origin := 49152 }, lockSet := [2, 3] }

/-- `closing` with entry 1 current. -/
def current1 : State := closing.withFollower { closing.follower with current := some 1, lockSet := [3] }

theorem witness_ReleasesLowerTheHoldCounts :
    closing.relay.resetting = false ∧ releaseFirst closing .great = some (act .release 24576 24576) ∧
      (act .release 24576 24576).keys.Nodup ∧
      ((planEntry (drawing closing) 1).registration = some 3 ∧ switchMade (drawing closing) 1 = false ∧
        noActions (after_ (exec (.releaseIssue .great) (drawing closing))) 0 = true ∧
        releaseFirst (drawing (walked following)) .great = some (act .release 24576 24576) ∧
        following.follower.current = some 0 ∧ following.follower.next ≠ none ∧
        walkFinished (drawing (walked following)) 0 (drawing (walked following)).sched.walkCurrent = true ∧
        releaseFirst (drawing current1) .great = some (act .release 24576 24576) ∧ current1.follower.current = some 1 ∧
        current1.follower.next = none ∧ cancelled (drawing current1) = false) := by decide +kernel

/-- R140, R47: with the last release of entry 0 goes the switch of entry 1, current, or engaged once the walk before it is finished. -/
theorem test_switchAtTheRelease :
    (let t := after_ (exec (.releaseIssue .great) (drawing current1))
     t.sched.active = some 3 ∧ t.sched.switched = some 1 ∧ t.sched.stopImage = 32) ∧
      (after_ (exec (.releaseIssue .great) (drawing (walked following)))).sched.active = some 3 ∧
      (after_ (exec (.releaseIssue .great) (drawing following))).sched.active = none := by decide +kernel

/-- R140: key 10 goes up, key 14 stays down. -/
theorem test_releaseIssue :
    (let t := after_ (exec (.releaseIssue .great) closing)
     queue t .great = [] ∧ playImage t .great = 0x4000#64 ∧ vget (t.sched.keyUps.get .great) 10 = some 60000 ∧
       vget (t.sched.keyUps.get .great) 14 = none) := by decide +kernel

/-- WAITING at 24,576 for entry 1, whose registration is set 3, a release of entry 0 left in the queue. -/
def succeeding : State :=
  let s := closing.withFollower { closing.follower with
    play := .waiting, current := some 1, stop := some { pos := 24576, kind := .wait, reachedAt := some 60000 } }
  let e := planEntry s 1
  ((s.withClock { s.clock with state := .held, t0 := 60000, x0 := 24576 }).withTables
    { s.tables with plan := vset s.tables.plan 1 { e with start := .choirLed, registration := some 3 } }).withSched
      { s.sched with walkCurrent := none, switched := some 0 }

/-- R47, R143: the switch waits for the last release of entry 0 while entry 1 is to be played, and is not made when FINISH has cancelled
entry 1. -/
theorem test_cancelledSwitch :
    (let s := after_ (exec .finish (told succeeding [7, 66]))
     let t := after_ (exec (.releaseIssue .great) s)
     s.follower.play = .ending ∧ queue t .great = [] ∧ t.sched.active = none ∧ t.sched.switched = some 0) ∧
      (let t := waitingSwitches (withQueue succeeding .great [])
       t.sched.active = some 3 ∧ t.sched.switched = some 1) := by decide +kernel

/-- R144, R132: the purge leaves a placement walk waiting, and its step, by now under override, is passed over at once. -/
theorem test_purgeFreesTheWalk :
    (let s := after_ (exec (.cipher (chest 1 1 37)) stalled)
     let t := after_ (exec (.stepPlace .current) s)
     s.sched.stalled = stalled.sched.stalled ∧ queue s .great = [] ∧ t.sched.walkCurrent = some 1 ∧ t.sched.stalled = none ∧
       (stepRec t 0).sounding = .notYet) := by decide +kernel

/-! ### What every step keeps -/

/-- A step of the opened part answers a next state, 1 tu on. -/
theorem test_step : (after_ (step opened)).partTime = 1 ∧ (after_ (step opened)).relay = opened.relay := by decide +kernel

theorem witness_EveryStepKeepsQueuesFit : QueuesFit opened ∧ LinesShut bypassed ∧ bypassed.relay.bypass = true := by
  unfold QueuesFit LinesShut
  decide +kernel

theorem witness_EveryStepKeepsIssueQueuesOrdered : IssueQueuesOrdered opened ∧ HoldsBounded opened := by
  refine ⟨fun d => ?_, fun d k => ?_⟩
  · have h : queue opened d = [] := by cases d <;> rfl
    simp [h]
  · have h : opened.sched.holds.get d = Vector.replicate 61 0 := by cases d <;> rfl
    simp [h, vget]

theorem witness_EveryStepKeepsOverridesSilent : OverrideSilent opened ∧ StopsFormed opened := by
  refine ⟨fun d h => ?_, ?_⟩
  · have h' : overridden opened d = false := by cases d <;> rfl
    simp [h'] at h
  · unfold StopsFormed; decide +kernel

theorem witness_EveryStepKeepsPlayAndClockTogether :
    ConfidenceSound opened ∧ ModeSound opened ∧ ClockMatchesPlay opened ∧ IdleHoldsNothing opened ∧ WindowOrdered opened ∧
      PlayHasCurrent opened ∧ ChecksOnlyInWaiting opened := by
  unfold ConfidenceSound ModeSound ClockMatchesPlay IdleHoldsNothing WindowOrdered PlayHasCurrent ChecksOnlyInWaiting
  decide +kernel

theorem witness_EveryStepKeepsTablesInRange : TablesInRange opened ∧ PeriodInRange opened ∧ LengthsInRange opened := by
  have entry (i : EntryNo) : planEntry opened i = PlanEntry.reset true := by
    simp [planEntry, opened, State.reset, Tables.reset, vget]
  have len (l : ListNo) : phraseLength opened l = 0 := by simp [phraseLength, opened, State.reset, Store.reset, vget]
  have period : PeriodInRange opened := by simp [PeriodInRange, opened, State.reset, Tables.reset, FollowProfile.reset, Clock.reset]
  refine ⟨?_, period, fun l => by simp [len], fun _ _ h => absurd h (by simp [opened, State.reset, Controller.reset])⟩
  unfold TablesInRange FollowInRange PickupInRange
  and_intros
  case refine_2.refine_1 => intro i; unfold EntryInRange; rw [entry]; and_intros <;> decide +kernel
  all_goals first | decide +kernel | (intro d; cases d <;> decide +kernel)

theorem witness_EveryStepKeepsTheStoreWhole : StoreWhole opened ∧ LocksClear opened := by
  have hc : ∀ l, chain opened l = if l = 0 then List.finRange 2048 else [] := by
    intro l
    show vget (vset (Vector.replicate 64 []) 0 (List.finRange 2048)) l = _
    rw [vget_vset]
    simp [vget]
  have hs : ∀ n, stepRec opened n = StepRec.reset := by
    intro n; simp [stepRec, opened, State.reset, Store.reset, vget]
  have once : EachStepInOneList opened := by
    constructor
    · intro l; rw [hc]; by_cases h : l = 0 <;> simp [h, List.nodup_finRange]
    · intro n l; rw [hc, hs]; by_cases h : l = 0 <;> simp [h, StepRec.reset, opened, State.reset, Store.reset, eq_comm]
  have sorted : ListsInOrder opened := fun l hl => by simp [hc, hl]
  have plan : ∀ i, (planEntry opened i).list ≠ 0 := fun i => by
    simp [planEntry, opened, State.reset, Tables.reset, vget, PlanEntry.reset]
  exact ⟨⟨once, sorted, rfl, fun _ => rfl⟩, fun l hl => (List.not_mem_nil hl).elim, plan⟩

end Tests

end Sys2Proof
end

section
/-! PROOF. DIV-PUT and DIV-GET (R51): the chamber delay of a division, what keeps it, and the leads it enters (R52, R53). -/

namespace Sys2Proof

namespace Machine

/-! ### What the four rows of the table do -/

theorem exec_divPut (s : State) : exec .divPut s = .next (take s .divPut putDelay noMark) := rfl

theorem exec_divGet (s : State) : exec .divGet s = .next (take s .divGet getDelay noMark) := rfl

theorem exec_halt (s : State) : exec .halt s = .next (take s .halt haltRequest noMark) := rfl

theorem exec_restart (s : State) : exec .restart s = .next (take s .restart restartRequest noMark) := rfl

/-! ### The two requests, by their division byte -/

theorem putDelay_num (s : State) (tag : Byte) (d : Division) (v0 v1 : Byte) :
    putDelay s tag [byte d.num, v0, v1] =
      done (s.withTables { s.tables with chamber := s.tables.chamber.set d (min (word v0 v1) 10000) })
        (outDelay d (min (word v0 v1) 10000)) := by
  simp [putDelay, wordAt, word]

theorem putDelay_of_no_division (s : State) (tag : Byte) {d : Byte} (rest : List Byte) (h : 4 ≤ d.toNat) :
    putDelay s tag (d :: rest) = refuse s .range := by
  simp [putDelay, Division.ofNum?_none h]

theorem getDelay_num (s : State) (tag : Byte) (d : Division) :
    getDelay s tag [byte d.num] = done s (outDelay d (s.tables.chamber.get d)) := by
  simp [getDelay]

theorem getDelay_of_no_division (s : State) (tag : Byte) {d : Byte} (rest : List Byte) (h : 4 ≤ d.toNat) :
    getDelay s tag (d :: rest) = refuse s .range := by
  simp [getDelay, Division.ofNum?_none h]

/-- DIV-PUT taken: what `putDelay` makes of its three bytes is answered. -/
theorem exec_divPut_of_taking {s : State} {tag d v0 v1 : Byte} (h : Taking s tag 3 [d, v0, v1]) :
    exec .divPut s = .next (answer (putDelay (withoutHead s) tag [d, v0, v1]) tag 3 false) := by
  rw [exec_divPut, take_of_taking h .divPut putDelay noMark rfl, noMark]

/-- DIV-GET taken: what `getDelay` makes of its byte is answered. -/
theorem exec_divGet_of_taking {s : State} {tag d : Byte} (h : Taking s tag 4 [d]) :
    exec .divGet s = .next (answer (getDelay (withoutHead s) tag [d]) tag 4 false) := by
  rw [exec_divGet, take_of_taking h .divGet getDelay noMark rfl, noMark]

/-! ### What resets the chamber delay, and what keeps it -/

/-- A full reset of any cause makes every chamber delay 0. -/
theorem beginReset_chamber (s : State) (c : ResetCause) (d : Division) : (beginReset s c).tables.chamber.get d = 0 :=
  PerDiv.get_fill 0 d

/-- A row keeps the tables when what carries out its request does. -/
theorem take_tables (s : State) (row : Instr) {act : State → Byte → List Byte → Answer} (marks : State → Bool)
    (hact : ∀ u tag args, (act u tag args).1.tables = u.tables) : (take s row act marks).tables = s.tables := by
  unfold take
  split
  · split
    · simp [hact]
    · rfl
  · rfl

theorem exec_halt_tables (s : State) : ∃ t, exec .halt s = .next t ∧ t.tables = s.tables :=
  ⟨_, exec_halt s, take_tables s _ _ fun u tag args => by simp⟩

theorem exec_restart_tables (s : State) : ∃ t, exec .restart s = .next t ∧ t.tables = s.tables :=
  ⟨_, exec_restart s, take_tables s _ _ fun u tag args => by simp⟩

/-! ### The leads -/

/-- The stops an entry sounds in a division do not depend on the chamber delays. -/
theorem stopsOf_withChamber (s : State) (c : PerDiv Nat) (d : Division) (i : EntryNo) :
    let u := s.withTables { s.tables with chamber := c }
    stopsOf u d (lessWithdrawn u (entrySet u i)) = stopsOf s d (lessWithdrawn s (entrySet s i)) := rfl

/-- A press lead differs from the chamber delay by the largest speech lead, which the chamber delays leave (R52). -/
theorem pressLead_withChamber (s : State) (c : PerDiv Nat) (d : Division) (i : EntryNo) :
    pressLead (s.withTables { s.tables with chamber := c }) d i =
      pressLead s d i + (c.get d : Int) - (s.tables.chamber.get d : Int) := by
  unfold pressLead
  rw [stopsOf_withChamber]
  simp only [State.withTables_tables]
  omega

/-- Settles O5: each request by the byte that names its division, the full reset by the table's reset values, HALT and RESTART by what
they leave of the tables, and the leads by their definitions over a table of chamber delays. -/
theorem divPutStoresTheChamberDelayClamped : Obligations.DivPutStoresTheChamberDelayClamped := by
  unfold Obligations.DivPutStoresTheChamberDelayClamped
  intro s tag
  refine ⟨fun d v0 v1 h => ?stored, fun d v0 v1 h hd => ?putRefused, fun d h => ?delayAnswered, fun d h hd => ?getRefused,
    fun d => ⟨beginReset_chamber s _ d, beginReset_chamber s _ d, beginReset_chamber s _ d⟩, fun _ => ?restartKeeps,
    fun _ => ?haltKeeps, fun d v i => ⟨?releaseLead, ?pressLead⟩⟩
  case stored => rw [exec_divPut_of_taking h, putDelay_num, answer_done]; rfl
  case putRefused => rw [exec_divPut_of_taking h, putDelay_of_no_division _ _ _ hd, answer_refuse]
  case delayAnswered => rw [exec_divGet_of_taking h, getDelay_num, answer_done]; rfl
  case getRefused => rw [exec_divGet_of_taking h, getDelay_of_no_division _ _ _ hd, answer_refuse]
  case restartKeeps =>
    obtain ⟨t, ht, htables⟩ := exec_restart_tables s
    exact ⟨t, ht, by rw [htables]⟩
  case haltKeeps =>
    obtain ⟨t, ht, htables⟩ := exec_halt_tables s
    exact ⟨t, ht, by rw [htables]⟩
  case releaseLead => simp [releaseLead]
  case pressLead => rw [pressLead_withChamber, PerDiv.get_set_same]

end Machine

end Sys2Proof
end

section
/-! PROOF. REPORT-RATE (R76): the rate it stores, and the BEAT alert that rate makes due at a rise of the highest position (R74, R75). -/

namespace Sys2Proof

namespace Machine

/-! ### The request -/

theorem exec_reportRate (s : State) : exec .reportRate s = .next (take s .reportRate rateRequest noMark) := rfl

/-- What REPORT-RATE makes of its byte. -/
theorem rateRequest_byte (s : State) (tag b : Byte) :
    rateRequest s tag [b] = done (s.withClock { s.clock with rate := min b.toNat 16 }) [byte (min b.toNat 16)] := by
  simp [rateRequest]

/-! ### The alert of a rise -/

/-- A beat alert is due when the rate is not 0 and divides one of the counts passed through (R75). -/
theorem beatReported_iff (s : State) (n : Nat) :
    beatReported s n = true ↔
      s.clock.rate ≠ 0 ∧ ∃ k, 1 ≤ k ∧ k ≤ n ∧ (s.clock.beats + BitVec.ofNat 32 k).toNat % s.clock.rate = 0 := by
  simp only [beatReported, Bool.and_eq_true, decide_eq_true_eq, List.any_eq_true, List.mem_range]
  refine and_congr_right fun _ => ⟨fun ⟨j, hj, hdvd⟩ => ⟨j + 1, by omega, hj, hdvd⟩, fun ⟨k, hpos, hle, hdvd⟩ => ?_⟩
  obtain ⟨j, rfl⟩ := Nat.exists_eq_add_of_le' hpos
  exact ⟨j, hle, hdvd⟩

/-- A rise with an alert due posts that one alert, with the count the rise ends at. -/
theorem raiseHighest_alerts_of_reported {s : State} {x : Pos} (h : beatReported s (crossings s x) = true)
    (hroom : s.handler.alerts.length < 16) (t : PartTime) :
    (raiseHighest s x t).handler.alerts = s.handler.alerts ++
      [.beat (s.clock.beats + BitVec.ofNat 32 (crossings s x)) s.follower.current (beatIndex s x) t] := by
  rw [raiseHighest, if_pos h, postAlert_of_room (by exact hroom)]
  rfl

/-- A rise with no alert due leaves the handler. -/
theorem raiseHighest_handler_of_not_reported {s : State} {x : Pos} (h : ¬ beatReported s (crossings s x) = true)
    (t : PartTime) : (raiseHighest s x t).handler = s.handler := by
  rw [raiseHighest, if_neg h]
  rfl

/-- Settles O29: the request by what it makes of its byte, the alerts by whether the rate divides a count of the rise. -/
theorem reportRateIsStoredAndRuled : Obligations.ReportRateIsStoredAndRuled := by
  unfold Obligations.ReportRateIsStoredAndRuled
  refine fun s tag b h => ⟨?stored, fun u x now _ hroom => ⟨fun hdue => ?reported, fun hnot => ?silent⟩⟩
  case stored =>
    rw [exec_reportRate, take_of_taking h .reportRate rateRequest noMark rfl, noMark, rateRequest_byte, answer_done]
    rfl
  case reported => exact raiseHighest_alerts_of_reported ((beatReported_iff u _).mpr hdue) hroom now
  case silent => exact raiseHighest_handler_of_not_reported (fun hdue => hnot ((beatReported_iff u _).mp hdue)) now

end Machine

end Sys2Proof
end

section
/-! PROOF. What a step can do, once: every command completes in one state (`effect`), the rows that move play (`PlayStep`), and the
rule by which an invariant that every such change keeps is kept by every step (`StepInvariant.keeps`). -/

namespace Sys2Proof

namespace Machine

set_option Elab.async false

/-! ### Every command completes -/

/-- The state command `i` leaves. -/
def effect (i : Instr) (s : State) : State :=
  match exec i s with
  | .next t => t
  | .fault _ => s
  | .refused _ => s

theorem exec_eq_effect (i : Instr) (s : State) : exec i s = .next (effect i s) := by cases i <;> rfl

theorem effect_of_exec {i : Instr} {s t : State} (h : exec i s = .next t) : effect i s = t := by
  rw [exec_eq_effect] at h; injection h

/-- What a step can do: the front command, or one of itself, or part time and the free counter run on. -/
theorem step_cases {s t : State} (h : step s = .next t) :
    (∃ c waiting, s.pending = c :: waiting ∧ t = effect c (s.withPending waiting)) ∨
      (∃ c, t = effect c s ∨ t = effect c s.drawn) ∨ t = tick s ∨ t = tick s.drawn := by
  have ran : ∀ {c u}, exec c u = .next t → t = effect c u := fun h => (effect_of_exec h).symm
  unfold step at h
  split at h
  · rename_i c waiting hp
    exact .inl ⟨c, waiting, hp, ran h⟩
  · right
    unfold idle at h
    split at h
    · unfold rest at h
      split at h
      · split at h
        · exact .inl ⟨_, .inl (ran h)⟩
        · split at h
          · exact .inl ⟨_, .inr (ran h)⟩
          · right; right; injection h with h; exact h.symm
      · right; left; injection h with h; exact h.symm
    · exact .inl ⟨_, .inl (ran h)⟩
    · exact .inl ⟨_, .inr (ran h)⟩

/-! ### Requests and due events -/

/-- Between `s` and `t` at most a request has left the buffer, a reply has been placed, and a clock or counter of the model has run. -/
def Quiet (s t : State) : Prop :=
  t = { s with
    partTime := t.partTime, pending := t.pending, freeCount := t.freeCount
    relay := { s.relay with slot := t.relay.slot }
    handler := { s.handler with buffer := t.handler.buffer, waiting := t.handler.waiting } } ∧
    t.handler.buffer.length ≤ s.handler.buffer.length

theorem Quiet.refl (s : State) : Quiet s s := ⟨rfl, le_rfl⟩

theorem quiet_withoutHead (s : State) : Quiet s (withoutHead s) := ⟨rfl, by simp [withoutHead]⟩

theorem quiet_placeReply (s : State) (r : Reply) : Quiet s (placeReply s r) := by
  unfold placeReply; split <;> exact ⟨rfl, le_rfl⟩

theorem quiet_answer (a : Answer) (tag code : Byte) (marks : Bool) : Quiet a.1 (answer a tag code marks) := by
  unfold answer; split
  · exact quiet_placeReply _ _
  · exact .refl _

theorem quiet_countFree (s : State) (p : List Byte) : Quiet s (countFree s p) := by
  unfold countFree; split <;> exact ⟨rfl, le_rfl⟩

theorem quiet_tick (s : State) : Quiet s (tick s) := by
  unfold tick; split <;> exact ⟨rfl, le_rfl⟩

section
variable {P : State → Prop} (quiet : ∀ {s t}, Quiet s t → P s → P t)
include quiet

/-- A request row keeps what its request and the bookkeeping of requests keep. -/
theorem take_keeps_of {s : State} {act : State → Byte → List Byte → Answer} (row : Instr) (marks : State → Bool)
    (hact : ∀ u tag args, u.relay = s.relay → u.follower = s.follower → P u → P (act u tag args).1) (h : P s) :
    P (take s row act marks) := by
  unfold take
  split
  · split
    · exact quiet (quiet_answer _ _ _ _) (hact _ _ _ (by simp) (by simp) (quiet (quiet_withoutHead s) h))
    · exact h
  · exact h

/-- A request that changes nothing keeps everything. -/
theorem take_keeps_of_same {s : State} {act : State → Byte → List Byte → Answer} (row : Instr) (marks : State → Bool)
    (hact : ∀ u tag args, (act u tag args).1 = u) (h : P s) : P (take s row act marks) :=
  take_keeps_of quiet row marks (fun u tag args _ _ hu => by rw [hact]; exact hu) h

theorem takeUnknown_keeps_of {s : State} (h : P s) : P (takeUnknown s) := by
  unfold takeUnknown
  split
  · split
    · exact quiet (quiet_answer _ _ _ _) (quiet (quiet_countFree _ _) (quiet (quiet_withoutHead s) h))
    · exact h
  · exact h

end

/-- What a due row leaves. -/
def afterDue (s : State) (isDue : Bool) (act : State) : State := if isDue && !s.relay.resetting then act else s

theorem afterDue_keeps {P : State → Prop} {s act : State} {isDue : Bool} (h : P s) (hact : isDue = true → P act) :
    P (afterDue s isDue act) := by
  unfold afterDue
  split
  · rename_i hd
    exact hact (by simp only [Bool.and_eq_true] at hd; exact hd.1)
  · exact h

end Machine

end Sys2Proof
end

section
/-! PROOF. The rows that move play, and the rule for invariants: what every kind of change keeps, every step keeps. -/

namespace Sys2Proof

namespace Machine

set_option Elab.async false

/-! ### The changes of play, clock, detector and scheduler -/

/-- A change that a request or a due row makes of the clock, the follower, the scheduler and the detector, under the condition the row
asks for. -/
inductive PlayStep (s : State) : State → Prop
  | mode (m : Mode) : PlayStep s (requestMode s m)
  | start (request : Option Nat) : s.follower.mode ≠ .off → s.follower.play = .idle →
      involved s (planEntry s 0).list = false → PlayStep s (startPlay s request)
  | finish : PlayStep s (finishPlay s)
  | halt : PlayStep s (stopIfPlaying s)
  | release : PlayStep s (releasePlay s)
  | tempoNow (p : Nat) : PlayStep s (applyPeriod (s.withClock { s.clock with pendingTempo := none }) p)
  | tempoNext (p : Nat) : PlayStep s (s.withClock { s.clock with pendingTempo := some (clampPeriod s p) })
  | registration (k : Option SetNo) : PlayStep s (setActive s k)
  | rate (n : Nat) : PlayStep s (s.withClock { s.clock with rate := n })
  | restart : PlayStep s (restartPlay s)
  | levels (q : Byte) (levels : List Nat) : PlayStep s (takeLevels s q levels)
  | stale : PlayStep s (becomeStale s)
  | boost : PlayStep s (endBoost s)
  | boundary : boundaryDue s = true → PlayStep s (settle (crossBoundary s))
  | renewal : renewalDue s = true → PlayStep s (renewAnchor s)
  | stop : stopDue s = true → PlayStep s (reachStop s)
  | gapOrigin : gapOriginDue s = true → PlayStep s (withPlay s .running)
  | phraseEnd : PlayStep s (passPhraseEnd s)
  | engage : PlayStep s (engageNext s)
  | pointOpen : PlayStep s (openDue s)
  | pointClose : PlayStep s (closeDue s)
  | leadIn : leadInDue s = true → PlayStep s (expireLeadIn s)
  | holdTimer : holdTimerDue s = true → PlayStep s (releaseHold s)
  | ending : endingDue s = true → PlayStep s (endPlay s)
  | pendingMode : PlayStep s (applyPendingMode s)
  | place (w : WalkSel) : stepPlaceReady s w = true → PlayStep s (placeFromWalk s w)
  | catchUp (d : Division) : catchUpReady s d = true → PlayStep s (placeFromCatchUp s d)
  | press (d : Division) : PlayStep s (pressNow s d)
  | releaseIssue (d : Division) : PlayStep s (releaseNow s d)
  | keyUp (d : Division) (k : Key) : PlayStep s (forgetKeyUp s d k)

/-! ### What each request of play comes to -/

theorem getList_fst (s : State) (tag : Byte) (args : List Byte) : (getList s tag args).1 = s := by
  unfold getList
  split
  · split
    · rfl
    · split <;> rfl
  · rfl

theorem getStep_fst (s : State) (tag : Byte) (args : List Byte) : (getStep s tag args).1 = s := by
  unfold getStep
  split
  · split <;> rfl
  · rfl

theorem modeRequest_play (s : State) (tag : Byte) (args : List Byte) :
    (modeRequest s tag args).1 = s ∨ PlayStep s (modeRequest s tag args).1 := by
  unfold modeRequest
  split
  · exact .inr (.mode _)
  · exact .inl rfl

theorem startRequest_play (s : State) (tag : Byte) (args : List Byte) :
    (startRequest s tag args).1 = s ∨ PlayStep s (startRequest s tag args).1 := by
  unfold startRequest
  split_ifs with hm hf hp hz hi
  · exact .inl rfl
  · exact .inl rfl
  · exact .inl rfl
  · exact .inl rfl
  · exact .inl rfl
  · exact .inr (.start _ hm (not_not.mp hp) (Bool.eq_false_iff.mpr hi))

theorem tempoNowRequest_play (s : State) (tag : Byte) (args : List Byte) :
    (tempoNowRequest s tag args).1 = s ∨ PlayStep s (tempoNowRequest s tag args).1 := by
  unfold tempoNowRequest
  split
  · exact .inr (.tempoNow _)
  · exact .inl rfl

theorem tempoNextRequest_play (s : State) (tag : Byte) (args : List Byte) :
    (tempoNextRequest s tag args).1 = s ∨ PlayStep s (tempoNextRequest s tag args).1 := by
  unfold tempoNextRequest
  split
  · split
    · exact .inr (.tempoNow _)
    · exact .inr (.tempoNext _)
  · exact .inl rfl

theorem regNowRequest_play (s : State) (tag : Byte) (args : List Byte) :
    (regNowRequest s tag args).1 = s ∨ PlayStep s (regNowRequest s tag args).1 := by
  unfold regNowRequest
  split
  · split
    · exact .inl rfl
    · exact .inr (.registration _)
  · exact .inl rfl

theorem faultClearRequest_keeps_of {P : State → Prop} {s : State} {tag : Byte} {args : List Byte}
    (hact : ∀ ds named, P s → P (clearFaults s ds named)) (h : P s) : P (faultClearRequest s tag args).1 := by
  unfold faultClearRequest
  split
  · exact hact _ _ h
  · exact h

/-! ### The rules an invariant is proved by -/

/-- The rows of the tables keep `P`. -/
structure TableRows (P : State → Prop) : Prop where
  putStop : ∀ s tag args, P s → P (putStop s tag args).1
  putDelay : ∀ s tag args, P s → P (putDelay s tag args).1
  putSet : ∀ s tag args, P s → P (putSet s tag args).1
  putPlan : ∀ s tag args, P s → P (putPlan s tag args).1
  putSize : ∀ s tag args, P s → P (putSize s tag args).1
  putFollow : ∀ s tag args, P s → P (putFollow s tag args).1
  putPickup : ∀ s tag args, P s → P (putPickup s tag args).1
  putSound : ∀ s tag args, P s → P (putSound s tag args).1

/-- The rows of the lists keep `P`. -/
structure ListRows (P : State → Prop) : Prop where
  newStep : ∀ s tag args, P s → P (newStep s tag args).1
  setStep : ∀ s tag args, P s → P (setStep s tag args).1
  moveStep : ∀ s tag args, P s → P (moveStep s tag args).1
  freeStep : ∀ s tag args, P s → P (freeStep s tag args).1
  emptyList : ∀ s tag args, P s → P (emptyList s tag args).1
  setLength : ∀ s tag args, P s → P (setLength s tag args).1
  placeCtlReply : ∀ s, P s → P (placeCtlReply s)
  visit : ∀ s, P s → P (visit s)

/-- The rows of the protection unit keep `P`. -/
structure FaultRows (P : State → Prop) : Prop where
  clearFaults : ∀ s ds named, P s → P (clearFaults s ds named)
  reportFault : ∀ s d r, P s → P (reportFault s d r)
  windLow : ∀ s, P s → P (windLow s)
  windOk : ∀ s, P s → P (windOk s)

/-- The rows of the relay path, and the taking of RESET, keep `P`. -/
structure RelayRows (P : State → Prop) : Prop where
  resetTaken : ∀ s, P s → P (s.withHandler { s.handler with resetTaken := true })
  forwardUp : ∀ s bytes, P s → P (forwardUp s bytes)
  takeKeys : ∀ s d image, P s → P (takeKeys s d image)
  takeStops : ∀ s image, P s → P (takeStops s image)
  bufferRequest : ∀ s payload, P s → P (bufferRequest s payload)
  passThrough : ∀ s bytes, P s → P (passThrough s bytes)
  takeDown : ∀ s, P s → P (takeDown s)
  downSent : ∀ s, P s → P (s.withRelay { s.relay with downLane := none })
  takeForward : ∀ s f rest, linesOpen s = true → s.relay.forward = f :: rest → P s →
    P (s.withRelay { s.relay with forward := rest, upLane := some { bytes := f, endsInReset := false } })
  replySent : ∀ s frame, linesOpen s = true → P s → P (s.withRelay { s.relay with slot := none, upLane := some frame })
  lostShown : ∀ s, P s → P (s.withHandler { s.handler with alertsLost := false })
  takeAlert : ∀ s a rest, linesOpen s = true → s.handler.alerts = a :: rest → P s → P (takeAlert s a rest)
  upSent : ∀ s, P s → P (s.withRelay { s.relay with upLane := none })
  bypassRelease : ∀ s, s.relay.resetting = false → P s → P (s.withRelay { s.relay with bypass := false })
  downReceiveStart : ∀ s, s.relay.resetting = false → s.relay.bypass = false → P s →
    P (s.withRelay { s.relay with downReceiving := true })
  pins : ∀ s p, P s → P (s.withPins p)

/-- The two ends of a full reset keep `P`. -/
structure ResetRows (P : State → Prop) : Prop where
  beginReset : ∀ s c, P s → P (beginReset s c)
  endReset : ∀ s straps four, s.relay.resetting = true → P s → P (endReset s straps four)

/-- Every kind of change a command makes keeps `P`. -/
structure StepInvariant (P : State → Prop) : Prop extends
    TableRows P, ListRows P, FaultRows P, RelayRows P, ResetRows P where
  quiet : ∀ {s t}, Quiet s t → P s → P t
  play : ∀ {s t}, PlayStep s t → P s → P t

section
variable {P : State → Prop}

/-- A predicate that tables do not enter is kept by their rows, when it is kept by what these do to play. -/
theorem TableRows.of_free (free : ∀ s a, P s → P (s.withTables a)) (stops : ∀ s, P s → P (reformStops s))
    (stop : ∀ s, P s → P (formStop s)) (period : ∀ s p, P s → P (applyPeriod s p)) : TableRows P where
  putStop s _ args h := by
    unfold Machine.putStop
    split
    · exact stops _ (free s _ h)
    · exact h
  putDelay s _ args h := by
    unfold Machine.putDelay
    split
    · exact free s _ h
    · exact h
  putSet s _ args h := by
    unfold Machine.putSet
    simp only
    split
    · change P (if _ then _ else _)
      split
      · exact stops _ (free s _ h)
      · exact free s _ h
    · exact h
  putPlan s _ args h := by
    unfold Machine.putPlan
    split
    · split
      · exact h
      · exact stop _ (free s _ h)
    · exact h
  putSize s _ args h := by
    unfold Machine.putSize
    simp only
    split_ifs
    · exact h
    · exact h
    · exact stop _ (free s _ h)
  putFollow s _ args h := by
    unfold Machine.putFollow
    split
    · change P (if _ then _ else _)
      split
      · exact period _ _ (free s _ h)
      · exact free s _ h
    · exact h
  putPickup s _ args h := free s _ h
  putSound s _ args h := free s _ h

/-- A predicate that neither the store nor the controller enters is kept by the rows of the lists, when play keeps it at the return to
READY. -/
theorem ListRows.of_free (free : ∀ s a c, P s → P ((s.withStore a).withCtl c)) (slot : ∀ s r, P s → P (s.withRelay { s.relay with slot := some r }))
    (join : ∀ s, P s → P (joinLists s)) : ListRows P where
  newStep s _ args h := by
    unfold Machine.newStep whenReady
    (repeat' split) <;> exact free s _ _ h
  setStep s _ args h := by
    unfold Machine.setStep whenReady
    (repeat' split) <;> exact free s s.store _ h
  moveStep s _ args h := by
    unfold Machine.moveStep whenReady
    (repeat' split) <;> exact free s s.store _ h
  freeStep s _ args h := by
    unfold Machine.freeStep whenReady
    (repeat' split) <;> exact free s s.store _ h
  emptyList s _ args h := by
    have begun : ∀ l, P (beginEmpty s ‹_› l) := fun l => by
      unfold beginEmpty; simp only; split <;> exact free s s.store _ h
    unfold Machine.emptyList whenReady
    (repeat' split) <;> first | exact begun _ | exact h
  setLength s _ args h := by
    unfold Machine.setLength whenReady
    (repeat' split) <;> exact free s s.store _ h
  placeCtlReply s h := by
    unfold Machine.placeCtlReply
    split
    · simp only
      split
      · exact join _ (free _ s.store _ (slot s _ h))
      · exact free _ s.store _ (slot s _ h)
    · exact h
  visit s h := by
    have linked : ∀ (u : State) n dest, P u → P (finishLink u n dest) := fun u n dest hu => by
      unfold finishLink
      split
      · unfold finishNew
        split
        · exact free u u.store _ hu
        · exact join _ (free u u.store _ hu)
      · exact free u u.store _ hu
      · exact free u u.store _ hu
    have stored : ∀ a, P (s.withStore a) := fun a => free s a s.ctl h
    unfold Machine.visit
    split
    · exact h
    · exact free s _ _ h
    · unfold setVisit
      simp only
      split <;> exact free s _ _ h
    · exact free s s.store _ h
    · exact free s s.store _ h
    · exact linked _ _ _ (stored _)
    · exact free s _ _ h
    · unfold emptyVisit
      split
      · simp only
        split <;> exact free s _ _ h
      · exact free s s.store _ h
    · exact free s _ _ h

/-- A predicate that protection does not enter is kept by its rows, when it is kept by what these do to play. -/
theorem FaultRows.of_free (free : ∀ s a, P s → P (s.withProt a)) (stops : ∀ s, P s → P (reformStops s))
    (purged : ∀ s d, P s → P (purge s d)) (stopped : ∀ s, P s → P (stopIfPlaying s))
    (dropped : ∀ s, P s → P (clearRegistration s)) (posted : ∀ s a, P s → P (postAlert s a))
    (switches : ∀ s, P s → P (waitingSwitches s)) (resumed : ∀ s d, P s → P (resumeDivision s d)) : FaultRows P := by
  have freed : ∀ ds (b u : State), P u → P (resumeFreed ds b u) := fun ds b u hu =>
    List.foldlRecOn ds _ hu fun a ha d _ => by
      split
      · exact resumed _ _ ha
      · exact ha
  refine { clearFaults := fun s ds named h => ?_, reportFault := fun s d r h => ?_, windLow := fun s h => ?_, windOk := fun s h => ?_ }
  · have cleared : P (ds.foldl (fun a d => withFault a d none) s) := List.foldlRecOn ds _ h fun a ha d _ => free a _ ha
    unfold Machine.clearFaults
    split
    · refine posted _ _ (freed _ _ _ (stops _ ?_))
      split
      · exact cleared
      · exact free _ _ cleared
    · exact h
  · unfold Machine.reportFault
    split
    · refine switches _ (posted _ _ ?_)
      have withdrawn : ∀ c, P (withdrawDivision (withFault s d (some r)) d c) := fun c => by
        refine stops _ ?_
        split
        · exact free s _ h
        · exact purged _ _ (free s _ h)
      split
      · exact dropped _ (stopped _ (free _ _ (withdrawn _)))
      · exact withdrawn _
    · split
      · exact h
      · exact posted _ _ (free s _ h)
  · unfold Machine.windLow
    split
    · exact h
    · refine switches _ (posted _ _ (List.foldlRecOn _ _ (free s _ h) fun a ha d _ => ?_))
      split
      · exact ha
      · exact purged _ _ ha
  · unfold Machine.windOk
    split
    · exact posted _ _ (freed _ _ _ (free s _ h))
    · exact h

/-- A predicate that the lines, the pins and the handler do not enter is kept by the rows of the relay path. -/
theorem RelayRows.of_free (free : ∀ s t, t = { s with relay := t.relay, handler := t.handler, pins := t.pins } → P s → P t) : RelayRows P where
  resetTaken s h := free s _ rfl h
  forwardUp s bytes h := by
    unfold Machine.forwardUp
    split
    · exact free s _ rfl h
    · exact h
  takeKeys s d image h := by
    unfold Machine.takeKeys markDue
    split <;> exact free s _ rfl h
  takeStops s image h := by
    unfold Machine.takeStops markDue
    split <;> exact free s _ rfl h
  bufferRequest s payload h := by
    unfold Machine.bufferRequest
    split
    · exact free s _ rfl h
    · exact h
  passThrough s bytes h := by
    unfold Machine.passThrough
    split
    · exact free s _ rfl h
    · exact h
  takeDown s h := by
    unfold Machine.takeDown
    split
    · exact free s _ rfl h
    · exact h
  downSent s h := free s _ rfl h
  takeForward s _ _ _ _ h := free s _ rfl h
  replySent s _ _ h := free s _ rfl h
  lostShown s h := free s _ rfl h
  takeAlert s _ _ _ _ h := free s _ rfl h
  upSent s h := free s _ rfl h
  bypassRelease s _ h := free s _ rfl h
  downReceiveStart s _ _ h := free s _ rfl h
  pins s p h := free s _ rfl h

end

namespace StepInvariant

variable {P : State → Prop} (inv : StepInvariant P)
include inv

/-! ### The requests -/

/-- A request of play keeps `P` when what it leaves is a change of play or nothing. -/
theorem take_play {s : State} {act : State → Byte → List Byte → Answer} (row : Instr) (marks : State → Bool)
    (hact : ∀ u tag args, (act u tag args).1 = u ∨ PlayStep u (act u tag args).1) (h : P s) : P (take s row act marks) := by
  refine take_keeps_of inv.quiet row marks (fun u tag args _ _ hu => ?_) h
  rcases hact u tag args with he | hp
  · rw [he]; exact hu
  · exact inv.play hp hu

theorem take_tablesOrLists {s : State} {act : State → Byte → List Byte → Answer} (row : Instr)
    (hact : ∀ u tag args, P u → P (act u tag args).1) (h : P s) : P (take s row act noMark) :=
  take_keeps_of inv.quiet row noMark (fun u tag args _ _ => hact u tag args) h

theorem take_same {s : State} {act : State → Byte → List Byte → Answer} (row : Instr) (marks : State → Bool)
    (hact : ∀ u tag args, (act u tag args).1 = u) (h : P s) : P (take s row act marks) :=
  take_keeps_of_same inv.quiet row marks hact h

/-! ### The relay rows -/

omit inv in
theorem fromUpstream {s : State} {bytes : List Byte} {k : Nat} {act : Frame → State} (h : P s) (hact : ∀ f, P (act f)) :
    P (Machine.fromUpstream s bytes k act) := by
  unfold Machine.fromUpstream
  split
  · split
    · exact hact _
    · exact h
  · exact h

theorem fromDownstream {s : State} (bytes : List Byte) (k : Nat) (h : P s) : P (fromDownstream s bytes k) := by
  unfold Machine.fromDownstream
  split
  · split
    · exact inv.forwardUp _ _ h
    · exact h
  · exact h

theorem chestFrame {s : State} (bytes : List Byte) (kind : Nat) {act : State → Nat → Nat → State} (h : P s)
    (hact : ∀ addr key, P (act s addr key)) : P (chestFrame s bytes kind act) := by
  unfold Machine.chestFrame
  split
  · split
    · split
      · exact inv.forwardUp _ _ (hact _ _)
      · split
        · exact h
        · exact inv.forwardUp _ _ h
    · exact h
  · exact h

theorem faultReport {s : State} (rec_ : Division → Nat → FaultRec) (addr key : Nat) (h : P s) :
    P (faultReport rec_ s addr key) := by
  unfold Machine.faultReport
  split
  · exact inv.reportFault _ _ _ h
  · exact h

theorem takeManage {s : State} (f : Frame) (bytes : List Byte) (h : P s) : P (takeManage s f bytes) := by
  unfold Machine.takeManage
  split
  · exact inv.bufferRequest _ _ h
  · exact inv.passThrough _ _ h

theorem placeWaiting {s : State} (h : P s) : P (placeWaiting s) := by
  unfold Machine.placeWaiting
  split
  · exact inv.quiet (s := s) ⟨rfl, le_rfl⟩ h
  · exact h

theorem takeReply {s : State} (r : Reply) (ho : linesOpen s = true) (h : P s) : P (takeReply s r) := by
  unfold Machine.takeReply refillSlot
  refine inv.placeWaiting (inv.placeCtlReply _ ?_)
  split
  · exact inv.lostShown _ (inv.replySent s _ ho h)
  · exact inv.replySent s _ ho h

theorem takeUp {s : State} (h : P s) : P (takeUp s) := by
  unfold Machine.takeUp
  split
  · rename_i ho _
    split
    · rename_i hf _
      exact inv.takeForward s _ _ ho (by assumption) h
    · exact inv.takeReply _ ho h
    · exact inv.takeAlert s _ _ ho (by assumption) h
    · exact h
  · exact h

theorem sentUp {s : State} (h : P s) : P (sentUp s) := by
  unfold Machine.sentUp
  split
  · split
    · exact inv.beginReset _ _ h
    · exact inv.upSent _ h
  · exact h

/-! ### The rows that come due -/

theorem due_play {s t : State} {isDue : Bool} (ht : isDue = true → PlayStep s t) (h : P s) : P (afterDue s isDue t) :=
  afterDue_keeps h fun hd => inv.play (ht hd) h

theorem placeEarly {s : State} (h : P s) : P (placeEarly s) := by
  unfold Machine.placeEarly
  split
  · exact inv.placeCtlReply _ h
  · exact h

theorem arriveLevels {s : State} (bytes : List Byte) (h : P s) : P (arriveLevels s bytes) := by
  unfold Machine.arriveLevels
  split
  · exact inv.play (.levels _ _) h
  · exact h

/-! ### Every command, and every step -/

/-- Every command keeps what every kind of change keeps. -/
theorem effect_keeps (i : Instr) {s : State} (h : P s) : P (effect i s) := by
  cases i with
  | stopPut => exact inv.take_tablesOrLists .stopPut inv.putStop h
  | stopGet => exact inv.take_same .stopGet noMark (fun u _ args => by unfold getStop; split <;> rfl) h
  | divPut => exact inv.take_tablesOrLists .divPut inv.putDelay h
  | divGet => exact inv.take_same .divGet noMark (fun u _ args => by unfold getDelay; split <;> rfl) h
  | regPut => exact inv.take_tablesOrLists .regPut inv.putSet h
  | regGet => exact inv.take_same .regGet noMark (fun u _ args => by unfold getSet; split <;> rfl) h
  | planPut => exact inv.take_tablesOrLists .planPut inv.putPlan h
  | planGet => exact inv.take_same .planGet noMark (fun u _ args => by unfold getPlan; split <;> rfl) h
  | planSize => exact inv.take_tablesOrLists .planSize inv.putSize h
  | followPut => exact inv.take_tablesOrLists .followPut inv.putFollow h
  | followGet => exact inv.take_same .followGet noMark (fun _ _ _ => rfl) h
  | pickupPut => exact inv.take_tablesOrLists .pickupPut inv.putPickup h
  | pickupGet => exact inv.take_same .pickupGet noMark (fun _ _ _ => rfl) h
  | soundPut => exact inv.take_tablesOrLists .soundPut inv.putSound h
  | soundGet => exact inv.take_same .soundGet noMark (fun _ _ _ => rfl) h
  | stepNew => exact inv.take_tablesOrLists .stepNew inv.newStep h
  | stepSet => exact inv.take_tablesOrLists .stepSet inv.setStep h
  | stepMove => exact inv.take_tablesOrLists .stepMove inv.moveStep h
  | stepFree => exact inv.take_tablesOrLists .stepFree inv.freeStep h
  | listEmpty => exact inv.take_tablesOrLists .listEmpty inv.emptyList h
  | listLength => exact inv.take_tablesOrLists .listLength inv.setLength h
  | stepGet => exact inv.take_same .stepGet noMark (fun u _ args => getStep_fst u _ args) h
  | listGet => exact inv.take_same .listGet noMark (fun u _ args => getList_fst u _ args) h
  | mode => exact inv.take_play .mode noMark (fun u _ args => modeRequest_play u _ args) h
  | start => exact inv.take_play .start noMark (fun u _ args => startRequest_play u _ args) h
  | finish => exact inv.take_play .finish noMark (fun _ _ _ => .inr .finish) h
  | halt => exact inv.take_play .halt noMark (fun _ _ _ => .inr .halt) h
  | release => exact inv.take_play .release noMark (fun _ _ _ => .inr .release) h
  | tempoNow => exact inv.take_play .tempoNow noMark (fun u _ args => tempoNowRequest_play u _ args) h
  | tempoNextBeat => exact inv.take_play .tempoNextBeat noMark (fun u _ args => tempoNextRequest_play u _ args) h
  | regNow => exact inv.take_play .regNow noMark (fun u _ args => regNowRequest_play u _ args) h
  | reportRate => exact inv.take_play .reportRate noMark (fun _ _ _ => .inr (.rate _)) h
  | faultClear => exact inv.take_tablesOrLists .faultClear (fun u _ args hu => faultClearRequest_keeps_of (inv.clearFaults u) hu) h
  | status => exact inv.take_same (act := statusRequest) .status (fun x => x.handler.alertsLost) (fun _ _ _ => rfl) h
  | restart => exact inv.take_play .restart noMark (fun _ _ _ => .inr .restart) h
  | reset => exact inv.take_tablesOrLists .reset (fun u _ _ hu => inv.resetTaken u hu) h
  | unknownRequest => exact takeUnknown_keeps_of inv.quiet h
  | consoleKeysFrame bytes =>
    refine fromUpstream h fun f => ?_
    split
    · exact inv.takeKeys _ _ _ h
    · exact h
  | consoleStopsFrame bytes => exact fromUpstream h fun f => inv.takeStops _ _ h
  | manageFrame bytes => exact fromUpstream h fun f => inv.takeManage f bytes h
  | cipher bytes => exact inv.chestFrame bytes 1 h fun addr key => inv.faultReport _ addr key h
  | driver bytes => exact inv.chestFrame bytes 2 h fun addr key => inv.faultReport _ addr key h
  | windLow bytes => exact inv.chestFrame (act := fun x _ _ => Machine.windLow x) bytes 3 h fun _ _ => inv.windLow _ h
  | windOk bytes => exact inv.chestFrame (act := fun x _ _ => Machine.windOk x) bytes 4 h fun _ _ => inv.windOk _ h
  | downstreamReply bytes => exact inv.fromDownstream bytes kindReply h
  | downstreamAlert bytes => exact inv.fromDownstream bytes kindAlert h
  | downstreamTake => exact inv.takeDown _ h
  | downstreamSendDone => exact inv.downSent _ h
  | upstreamTake => exact inv.takeUp h
  | upstreamSendDone => exact inv.sentUp h
  | powerOn => exact inv.beginReset _ _ h
  | resetInput => exact inv.beginReset _ _ (inv.pins _ _ h)
  | resetEnd straps four =>
    change P (if s.relay.resetting then Machine.endReset s straps four else s)
    split
    · exact inv.endReset _ _ _ ‹_› h
    · exact h
  | bypassRelease =>
    change P (if s.relay.resetting then s else s.withRelay { s.relay with bypass := false })
    split
    · exact h
    · exact inv.bypassRelease _ (Bool.eq_false_iff.mpr ‹_›) h
  | downstreamReceiveStart =>
    change P (if s.relay.resetting || s.relay.bypass then s else s.withRelay { s.relay with downReceiving := true })
    split
    · exact h
    · rename_i hb
      simp only [Bool.or_eq_true, not_or, Bool.not_eq_true] at hb
      exact inv.downReceiveStart _ hb.1 hb.2 h
  | levelFrame bytes => exact afterDue_keeps (isDue := true) h fun _ => inv.arriveLevels bytes h
  | staleTimerExpiry => exact inv.due_play (fun _ => .stale) h
  | boostExpiry => exact inv.due_play (fun _ => .boost) h
  | beatBoundary => exact inv.due_play .boundary h
  | anchorRenewal => exact inv.due_play .renewal h
  | stopPointReached => exact inv.due_play .stop h
  | gapOriginReached => exact inv.due_play .gapOrigin h
  | phraseEndReached => exact inv.due_play (fun _ => .phraseEnd) h
  | nextEntryEngage => exact inv.due_play (fun _ => .engage) h
  | pointOpen => exact inv.due_play (fun _ => .pointOpen) h
  | pointClose => exact inv.due_play (fun _ => .pointClose) h
  | leadInExpiry => exact inv.due_play .leadIn h
  | holdTimerExpiry => exact inv.due_play .holdTimer h
  | endingToIdle => exact inv.due_play .ending h
  | pendingModeEffect => exact inv.due_play (fun _ => .pendingMode) h
  | stepPlace walk => exact inv.due_play (.place walk) h
  | catchUpPlace d => exact inv.due_play (.catchUp d) h
  | pressIssue d => exact inv.due_play (fun _ => .press d) h
  | releaseIssue d => exact inv.due_play (fun _ => .releaseIssue d) h
  | keyUpTimeExpiry d k => exact inv.due_play (fun _ => .keyUp d k) h
  | listVisit => exact afterDue_keeps h fun _ => inv.visit _ (inv.placeEarly h)
  | listCommandDone => exact afterDue_keeps h fun _ => inv.placeCtlReply _ h
  | downstreamFrameDiscard bytes => exact h

/-- Every step keeps what every kind of change keeps. -/
theorem keeps {s t : State} (h : P s) (ht : step s = .next t) : P t := by
  have hdrawn : P s.drawn := inv.quiet (s := s) ⟨rfl, le_rfl⟩ h
  rcases step_cases ht with ⟨c, waiting, -, rfl⟩ | ⟨c, rfl | rfl⟩ | rfl | rfl
  · exact inv.effect_keeps c (inv.quiet (s := s) ⟨rfl, le_rfl⟩ h)
  · exact inv.effect_keeps c h
  · exact inv.effect_keeps c hdrawn
  · exact inv.quiet (quiet_tick s) h
  · exact inv.quiet (quiet_tick s.drawn) hdrawn

end StepInvariant

end Machine

end Sys2Proof
end

section
/-! PROOF. The queue of commands and part time (O1 to O3), and the state after a full reset (O60). -/

namespace Sys2Proof

namespace Machine

set_option Elab.async false

/-- The waiting commands and part time are the same in both states. -/
def SameQueueAndTime (s t : State) : Prop := t.pending = s.pending ∧ t.partTime = s.partTime

theorem SameQueueAndTime.refl (s : State) : SameQueueAndTime s s := ⟨rfl, rfl⟩

theorem take_time {s : State} {act : State → Byte → List Byte → Answer} (row : Instr) (marks : State → Bool)
    (hact : ∀ u tag args, SameQueueAndTime u (act u tag args).1) : SameQueueAndTime s (take s row act marks) := by
  unfold take
  split
  · split
    · have h := hact (withoutHead s)
      exact ⟨by simp [(h _ _).1], by simp [(h _ _).2]⟩
    · exact .refl s
  · exact .refl s

theorem afterDue_time {s act : State} {isDue : Bool} (h : SameQueueAndTime s act) :
    SameQueueAndTime s (afterDue s isDue act) := afterDue_keeps (.refl s) fun _ => h

theorem fromUpstream_time {s : State} {bytes : List Byte} {k : Nat} {act : Frame → State}
    (hact : ∀ f, SameQueueAndTime s (act f)) : SameQueueAndTime s (fromUpstream s bytes k act) :=
  StepInvariant.fromUpstream (.refl s) hact

theorem chestFrame_time {s : State} {bytes : List Byte} {kind : Nat} {act : State → Nat → Nat → State}
    (hact : ∀ addr key, SameQueueAndTime s (act s addr key)) : SameQueueAndTime s (chestFrame s bytes kind act) := by
  have fwd : ∀ {t} b, SameQueueAndTime s t → SameQueueAndTime s (forwardUp t b) := fun b h =>
    ⟨by simp [h.1], by simp [h.2]⟩
  unfold chestFrame
  split
  · split
    · split
      · exact fwd _ (hact _ _)
      · split
        · exact .refl s
        · exact fwd _ (.refl s)
    · exact .refl s
  · exact .refl s

theorem refillSlot_time (s : State) : SameQueueAndTime s (refillSlot s) := by
  unfold refillSlot placeWaiting
  split <;> exact ⟨by simp, by simp⟩

theorem takeReply_time (s : State) (r : Reply) : SameQueueAndTime s (takeReply s r) := by
  simp only [takeReply]
  split <;> exact refillSlot_time _

theorem takeUp_time (s : State) : SameQueueAndTime s (takeUp s) := by
  unfold takeUp
  split
  · split
    · exact .refl s
    · exact takeReply_time s _
    · exact .refl s
    · exact .refl s
  · exact .refl s

/-- No command but the end of a full reset moves part time, and none the waiting commands. -/
theorem effect_time (i : Instr) (s : State) :
    (effect i s).pending = s.pending ∧ ((∀ straps four, i ≠ .resetEnd straps four) → (effect i s).partTime = s.partTime) := by
  suffices h : (∃ straps four, i = .resetEnd straps four) ∨ SameQueueAndTime s (effect i s) by
    rcases h with ⟨straps, four, rfl⟩ | h
    · refine ⟨?_, fun h => absurd rfl (h straps four)⟩
      change (if s.relay.resetting then endReset s straps four else s).pending = s.pending
      split <;> rfl
    · exact ⟨h.1, fun _ => h.2⟩
  cases i with
  | resetEnd straps four => exact .inl ⟨_, _, rfl⟩
  | stopPut | divPut | regPut | planPut | planSize | followPut | pickupPut | soundPut | stepNew | stepSet | stepMove | stepFree
  | listEmpty | listLength | mode | start | finish | halt | release | tempoNow | tempoNextBeat | regNow | reportRate
  | faultClear | restart | reset =>
    exact .inr (take_time _ _ fun u tag args => ⟨by simp, by simp⟩)
  | stopGet => exact .inr (take_time .stopGet noMark fun u tag args => by unfold getStop; split <;> exact .refl u)
  | divGet => exact .inr (take_time .divGet noMark fun u tag args => by unfold getDelay; split <;> exact .refl u)
  | regGet => exact .inr (take_time .regGet noMark fun u tag args => by unfold getSet; split <;> exact .refl u)
  | planGet => exact .inr (take_time .planGet noMark fun u tag args => by unfold getPlan; split <;> exact .refl u)
  | followGet => exact .inr (take_time .followGet noMark fun u _ _ => .refl u)
  | pickupGet => exact .inr (take_time .pickupGet noMark fun u _ _ => .refl u)
  | soundGet => exact .inr (take_time .soundGet noMark fun u _ _ => .refl u)
  | stepGet => exact .inr (take_time .stepGet noMark fun u tag args => by rw [getStep_fst]; exact .refl u)
  | listGet => exact .inr (take_time .listGet noMark fun u tag args => by rw [getList_fst]; exact .refl u)
  | status => exact .inr (take_time (act := statusRequest) .status (fun x => x.handler.alertsLost) fun u _ _ => .refl u)
  | unknownRequest => exact .inr ⟨by change (takeUnknown s).pending = _; simp, by change (takeUnknown s).partTime = _; simp⟩
  | consoleKeysFrame bytes =>
    exact .inr (fromUpstream_time fun f => by
      split
      · exact ⟨by simp [takeKeys], by simp [takeKeys]⟩
      · exact .refl s)
  | consoleStopsFrame bytes => exact .inr (fromUpstream_time fun f => ⟨by simp [takeStops], by simp [takeStops]⟩)
  | manageFrame bytes =>
    exact .inr (fromUpstream_time fun f => by
      unfold takeManage bufferRequest passThrough; split_ifs <;> exact .refl s)
  | cipher bytes | driver bytes | windLow bytes | windOk bytes => exact .inr (chestFrame_time fun addr key => ⟨by simp, by simp⟩)
  | downstreamReply bytes | downstreamAlert bytes =>
    refine .inr ?_
    change SameQueueAndTime s (fromDownstream s bytes _)
    unfold fromDownstream
    split_ifs
    · split
      · exact ⟨by simp, by simp⟩
      · exact .refl s
    · exact .refl s
  | downstreamTake =>
    refine .inr ?_
    change SameQueueAndTime s (takeDown s)
    unfold takeDown; split <;> exact .refl s
  | upstreamTake => exact .inr (takeUp_time s)
  | upstreamSendDone =>
    refine .inr ?_
    change SameQueueAndTime s (sentUp s)
    unfold sentUp
    split
    · split <;> exact .refl s
    · exact .refl s
  | bypassRelease =>
    refine .inr ?_
    change SameQueueAndTime s (if s.relay.resetting then s else _)
    split <;> exact .refl s
  | downstreamReceiveStart =>
    refine .inr ?_
    change SameQueueAndTime s (if s.relay.resetting || s.relay.bypass then s else _)
    split <;> exact .refl s
  | downstreamSendDone | powerOn | resetInput | downstreamFrameDiscard => exact .inr ⟨rfl, rfl⟩
  | levelFrame bytes =>
    refine .inr (afterDue_time (isDue := true) ?_)
    unfold arriveLevels; split
    · exact ⟨by simp, by simp⟩
    · exact .refl s
  | staleTimerExpiry | boostExpiry | beatBoundary | anchorRenewal | gapOriginReached | phraseEndReached | nextEntryEngage
  | leadInExpiry | holdTimerExpiry | endingToIdle | pendingModeEffect | stepPlace | catchUpPlace | keyUpTimeExpiry
  | listVisit | listCommandDone => exact .inr (afterDue_time ⟨by simp, by simp⟩)
  | stopPointReached => exact .inr (afterDue_time (by unfold reachStop; split <;> exact ⟨by simp, by simp⟩))
  | pointOpen => exact .inr (afterDue_time (by unfold openDue; split <;> exact ⟨by simp, by simp⟩))
  | pointClose => exact .inr (afterDue_time (by unfold closeDue; split <;> exact ⟨by simp, by simp⟩))
  | pressIssue => exact .inr (afterDue_time (by unfold pressNow; split <;> exact ⟨by simp, by simp⟩))
  | releaseIssue => exact .inr (afterDue_time (by unfold releaseNow; split <;> exact ⟨by simp, by simp⟩))

/-- Settles O1. -/
theorem stepRunsTheFrontCommand : Obligations.StepRunsTheFrontCommand := by
  unfold Obligations.StepRunsTheFrontCommand
  intro s c waiting h
  simp only [step, h]

/-- Settles O2: each command answers `effect`, and a command but for a full reset's end moves neither time nor queue. -/
theorem everyCommandCompletes : Obligations.EveryCommandCompletes := by
  unfold Obligations.EveryCommandCompletes
  intro c s
  obtain ⟨hp, ht⟩ := effect_time c s
  exact ⟨effect c s, exec_eq_effect c s, hp, ht⟩

/-- Settles O3: the three branches of `idle` on a queue that is empty. -/
theorem partTimeRunsWhenNothingIsDue : Obligations.PartTimeRunsWhenNothingIsDue := by
  unfold Obligations.PartTimeRunsWhenNothingIsDue
  intro s hq hr
  have idles : step s = idle s := by simp only [step, hq]
  refine ⟨fun hd hv => ?_, fun hd hv hp => ?_, fun c hd => ?_⟩
  · simp [idles, idle, hd, rest, hv, tick, hr]
  · simp [idles, idle, hd, rest, hv, hp, hr]
  · simp [idles, idle, hd]

end Machine

end Sys2Proof
end

section
/-! PROOF. The values after a full reset meet every invariant, block by block (O60). -/

namespace Sys2Proof

namespace Machine

set_option Elab.async false

@[simp] theorem vget_replicate {α : Type} {n : Nat} (a : α) (i : Fin n) : vget (Vector.replicate n a) i = a := by
  simp [vget]

theorem queuesFit_of_reset {s : State} {c : ResetCause} {node : BitVec 4} {r : Bool}
    (hr : s.relay = { Relay.inReset node with resetting := r }) (hh : s.handler = Handler.reset c) : QueuesFit s := by
  simp [QueuesFit, hr, hh, Relay.inReset, Handler.reset, passCount, markersOf]

theorem linesShut_of_reset {s : State} {node : BitVec 4} {r : Bool}
    (hr : s.relay = { Relay.inReset node with resetting := r }) : LinesShut s := by
  simp [LinesShut, hr, Relay.inReset]

theorem queue_of_reset {s : State} (h : s.sched = Sched.reset) (d : Division) : queue s d = [] := by
  simp [queue, h, Sched.reset]

theorem holds_of_reset {s : State} (h : s.sched = Sched.reset) (d : Division) (k : Key) : vget (s.sched.holds.get d) k = 0 := by
  simp [h, Sched.reset]

theorem issueQueuesOrdered_of_reset {s : State} (h : s.sched = Sched.reset) : IssueQueuesOrdered s := fun d => by
  simp [queue_of_reset h]

theorem holdsBounded_of_reset {s : State} (h : s.sched = Sched.reset) : HoldsBounded s := fun d k => by
  simp [holds_of_reset h]

theorem overrideSilent_of_reset {s : State} (h : s.sched = Sched.reset) : OverrideSilent s := fun d _ =>
  ⟨queue_of_reset h d, holds_of_reset h d⟩

theorem stopsFormed_of_reset {s : State} (h : s.sched = Sched.reset) : StopsFormed s := by
  simp [StopsFormed, formedImage, activeSet, h, Sched.reset, lessWithdrawn, membersOf, bitsOf]

theorem confidenceSound_of_reset {s : State} (h : s.follower = Follower.reset) : ConfidenceSound s := by
  simp [ConfidenceSound, h, Follower.reset]

theorem windowOrdered_of_reset {s : State} (h : s.follower = Follower.reset) : WindowOrdered s := by
  simp [WindowOrdered, h, Follower.reset]

theorem entryInRange_reset (four : Bool) : EntryInRange (availableMask four) (PlanEntry.reset four) := by
  cases four <;> simp [EntryInRange, PlanEntry.reset, availableMask, channelsIn, membersOf] <;> decide

theorem tablesInRange_of_reset {s : State} {four : Bool} (ht : s.tables = Tables.reset four)
    (hd : s.detector = Detector.reset four) : TablesInRange s := by
  have stop : ∀ n : Fin 48, vget s.tables.stops n = StopEntry.reset n.val := fun n => by
    rw [ht]; simp [Tables.reset, vget]
  refine ⟨by simp [ht, Tables.reset], fun i => ?_, fun n => by simp [stop, StopEntry.reset], fun d => by simp [ht, Tables.reset],
    by simp [ht, Tables.reset], by simp [ht, Tables.reset, FollowInRange, FollowProfile.reset],
    by simp [ht, Tables.reset, PickupInRange, PickupProfile.reset]⟩
  have havail : available s = availableMask four := by simp [available, hd, Detector.reset]
  simpa [planEntry, ht, Tables.reset, havail] using entryInRange_reset four

theorem periodInRange_of_reset {s : State} {four : Bool} (ht : s.tables = Tables.reset four) (hc : s.clock = Clock.reset) :
    PeriodInRange s := by
  simp [PeriodInRange, ht, hc, Tables.reset, FollowProfile.reset, Clock.reset]

theorem lengthsInRange_of_reset {s : State} (hs : s.store = Store.reset) (hc : s.ctl = Controller.reset) : LengthsInRange s := by
  simp [LengthsInRange, phraseLength, hs, hc, Store.reset, Controller.reset]

theorem chain_of_reset {s : State} (hs : s.store = Store.reset) (l : ListNo) :
    chain s l = if l = 0 then List.finRange 2048 else [] := by
  simp only [chain, hs, Store.reset, vget_vset, vget_replicate]

theorem storeWhole_of_reset {s : State} (hs : s.store = Store.reset) (hc : s.ctl = Controller.reset) : StoreWhole s := by
  have hrec : ∀ n, stepRec s n = StepRec.reset := fun n => by simp [stepRec, hs, Store.reset]
  have hun : s.store.unplaced = none := by rw [hs]; rfl
  have hwork : s.ctl.work = none := by rw [hc]; rfl
  refine ⟨⟨fun l => ?_, fun n l => ?_⟩, fun l hl => ?_, ?_, fun _ => hwork⟩
  · rw [chain_of_reset hs]
    split
    · exact List.nodup_finRange 2048
    · exact List.nodup_nil
  · rw [chain_of_reset hs, hrec, hun]
    by_cases hl : l = 0
    · simp [hl, StepRec.reset]
    · simpa [hl, StepRec.reset] using Ne.symm hl
  · simp [chain_of_reset hs, hl]
  · simp [WorkSound, hwork, hun]

theorem locksClear_of_reset {s : State} {four : Bool} (hf : s.follower = Follower.reset) (ht : s.tables = Tables.reset four) :
    LocksClear s := by
  simp [LocksClear, hf, Follower.reset, planEntry, ht, Tables.reset, PlanEntry.reset]

/-- Settles O60: each block's values after a full reset, in its own lemma above. -/
theorem resetMeetsEveryInvariant : Obligations.ResetMeetsEveryInvariant := by
  unfold Obligations.ResetMeetsEveryInvariant
  exact ⟨queuesFit_of_reset (c := .power) (node := 0) (r := false) rfl rfl, linesShut_of_reset (node := 0) (r := false) rfl,
    issueQueuesOrdered_of_reset rfl, holdsBounded_of_reset rfl, overrideSilent_of_reset rfl, stopsFormed_of_reset rfl,
    confidenceSound_of_reset rfl, ⟨fun _ => rfl, by simp [State.reset, Follower.reset]⟩, by simp [ClockMatchesPlay, State.reset, Follower.reset, Clock.reset],
    fun _ => ⟨rfl, rfl, rfl, rfl, rfl, rfl⟩, fun h => absurd rfl h, windowOrdered_of_reset rfl, nofun,
    tablesInRange_of_reset (four := true) rfl rfl, periodInRange_of_reset (four := true) rfl rfl, lengthsInRange_of_reset rfl rfl,
    storeWhole_of_reset rfl rfl, locksClear_of_reset (four := true) rfl rfl⟩

end Machine

end Sys2Proof
end

section
/-! PROOF. What play may change (`Evolves`): the clock, the follower and the scheduler move within their invariants, alerts and markers
are added, results are written, and nothing else of the part changes. -/

namespace Sys2Proof

namespace Machine

set_option Elab.async false

/-! ### The relation -/

/-- From relay `r` to relay `q` markers are marked due, each once, and the reply in the slot may lose its mark; nothing else changes. -/
structure RelayGrows (r q : Relay) : Prop where
  same : q = { r with downQueue := q.downQueue, slot := q.slot }
  slot : q.slot.map Reply.data = r.slot.map Reply.data
  mem : ∀ x ∈ r.downQueue, x ∈ q.downQueue
  fits : (markersOf r.downQueue).Nodup → (markersOf q.downQueue).Nodup ∧ passCount q.downQueue = passCount r.downQueue

/-- From handler `h` to handler `k` alerts are posted or lost; nothing else changes. -/
structure HandlerGrows (h k : Handler) : Prop where
  same : k = { h with waiting := k.waiting, alerts := k.alerts, alertsLost := k.alertsLost }
  waiting : k.waiting.map Reply.data = h.waiting.map Reply.data
  mem : ∀ x ∈ h.alerts, x ∈ k.alerts
  fits : h.alerts.length ≤ 16 → k.alerts.length ≤ 16

/-- From store `a` to store `b` results are written; lists and music stand. -/
structure ScoreKept (a b : Store) : Prop where
  chains : b.chains = a.chains
  lengths : b.lengths = a.lengths
  unplaced : b.unplaced = a.unplaced
  list : ∀ n, (vget b.steps n).list = (vget a.steps n).list
  music : ∀ n, (vget b.steps n).music = (vget a.steps n).music

/-- With no list involved in a command, the lock set is the lists play calls for (R33). -/
def CalledLocked (s : State) : Prop := s.ctl.cmd.source = none → s.ctl.cmd.target = none → s.follower.lockSet = calledLists s

/-- From `s` to `t` play has moved: clock, follower and scheduler within their invariants, alerts, markers and results added. -/
structure Evolves (s t : State) : Prop where
  partTime : t.partTime = s.partTime
  pins : t.pins = s.pins
  tables : t.tables = s.tables
  prot : t.prot = s.prot
  ctl : t.ctl = s.ctl
  pending : t.pending = s.pending
  freeCount : t.freeCount = s.freeCount
  channels : t.detector.fourChannels = s.detector.fourChannels
  relay : RelayGrows s.relay t.relay
  handler : HandlerGrows s.handler t.handler
  score : ScoreKept s.store t.store
  period : PeriodInRange s → PeriodInRange t
  stops : StopsFormed s → StopsFormed t
  queues : IssueQueuesOrdered s → IssueQueuesOrdered t
  holds : HoldsBounded s → HoldsBounded t
  silent : OverrideSilent s → OverrideSilent t
  conf : ConfidenceSound s → ConfidenceSound t
  window : WindowOrdered s → WindowOrdered t
  locks : LocksClear s → LocksClear t
  called : CalledLocked s → CalledLocked t

theorem RelayGrows.refl (r : Relay) : RelayGrows r r := ⟨rfl, rfl, fun _ h => h, fun h => ⟨h, rfl⟩⟩

theorem RelayGrows.trans {r q p : Relay} (h1 : RelayGrows r q) (h2 : RelayGrows q p) : RelayGrows r p where
  same := by rw [h2.same, h1.same]
  slot := h2.slot.trans h1.slot
  mem := fun x hx => h2.mem x (h1.mem x hx)
  fits := fun h =>
    have hq := h1.fits h
    have hp := h2.fits hq.1
    ⟨hp.1, hp.2.trans hq.2⟩

theorem HandlerGrows.refl (h : Handler) : HandlerGrows h h := ⟨rfl, rfl, fun _ h => h, id⟩

theorem HandlerGrows.trans {h k l : Handler} (h1 : HandlerGrows h k) (h2 : HandlerGrows k l) : HandlerGrows h l where
  same := by rw [h2.same, h1.same]
  waiting := h2.waiting.trans h1.waiting
  mem := fun x hx => h2.mem x (h1.mem x hx)
  fits := h2.fits ∘ h1.fits

theorem ScoreKept.refl (a : Store) : ScoreKept a a := ⟨rfl, rfl, rfl, fun _ => rfl, fun _ => rfl⟩

theorem ScoreKept.trans {a b c : Store} (h1 : ScoreKept a b) (h2 : ScoreKept b c) : ScoreKept a c where
  chains := h2.chains.trans h1.chains
  lengths := h2.lengths.trans h1.lengths
  unplaced := h2.unplaced.trans h1.unplaced
  list := fun n => (h2.list n).trans (h1.list n)
  music := fun n => (h2.music n).trans (h1.music n)

namespace Evolves

theorem refl (s : State) : Evolves s s where
  partTime := rfl
  pins := rfl
  tables := rfl
  prot := rfl
  ctl := rfl
  pending := rfl
  freeCount := rfl
  channels := rfl
  relay := .refl _
  handler := .refl _
  score := .refl _
  period := id
  stops := id
  queues := id
  holds := id
  silent := id
  conf := id
  window := id
  locks := id
  called := id

theorem trans {s t u : State} (h1 : Evolves s t) (h2 : Evolves t u) : Evolves s u where
  partTime := h2.partTime.trans h1.partTime
  pins := h2.pins.trans h1.pins
  tables := h2.tables.trans h1.tables
  prot := h2.prot.trans h1.prot
  ctl := h2.ctl.trans h1.ctl
  pending := h2.pending.trans h1.pending
  freeCount := h2.freeCount.trans h1.freeCount
  channels := h2.channels.trans h1.channels
  relay := h1.relay.trans h2.relay
  handler := h1.handler.trans h2.handler
  score := h1.score.trans h2.score
  period := h2.period ∘ h1.period
  stops := h2.stops ∘ h1.stops
  queues := h2.queues ∘ h1.queues
  holds := h2.holds ∘ h1.holds
  silent := h2.silent ∘ h1.silent
  conf := h2.conf ∘ h1.conf
  window := h2.window ∘ h1.window
  locks := h2.locks ∘ h1.locks
  called := h2.called ∘ h1.called

theorem ite {s t u : State} {c : Prop} [Decidable c] (ht : c → Evolves s t) (hu : ¬c → Evolves s u) :
    Evolves s (if c then t else u) := by
  split
  · exact ht ‹_›
  · exact hu ‹_›

/-! ### One block replaced -/

theorem withRelay {s : State} {r : Relay} (h : RelayGrows s.relay r) : Evolves s (s.withRelay r) :=
  { refl s with relay := h }

theorem withHandler {s : State} {k : Handler} (h : HandlerGrows s.handler k) : Evolves s (s.withHandler k) :=
  { refl s with handler := h }

theorem withStore {s : State} {a : Store} (h : ScoreKept s.store a) : Evolves s (s.withStore a) :=
  { refl s with score := h }

theorem withDetector {s : State} {d : Detector} (h : d.fourChannels = s.detector.fourChannels) :
    Evolves s (s.withDetector d) :=
  { refl s with channels := h }

theorem withClock {s : State} {c : Clock} (h : PeriodInRange s → PeriodInRange (s.withClock c)) :
    Evolves s (s.withClock c) :=
  { refl s with period := h }

theorem withFollower {s : State} {f : Follower}
    (conf : ConfidenceSound s → ConfidenceSound (s.withFollower f) := by exact id)
    (window : WindowOrdered s → WindowOrdered (s.withFollower f) := by exact id)
    (locks : LocksClear s → LocksClear (s.withFollower f) := by exact id)
    (called : CalledLocked s → CalledLocked (s.withFollower f) := by exact id) : Evolves s (s.withFollower f) :=
  { refl s with conf, window, locks, called }

theorem withSched {s : State} {c : Sched}
    (stops : StopsFormed s → StopsFormed (s.withSched c) := by exact id)
    (queues : IssueQueuesOrdered s → IssueQueuesOrdered (s.withSched c) := by exact id)
    (holds : HoldsBounded s → HoldsBounded (s.withSched c) := by exact id)
    (silent : OverrideSilent s → OverrideSilent (s.withSched c) := by exact id) : Evolves s (s.withSched c) :=
  { refl s with stops, queues, holds, silent }

end Evolves

/-! ### Alerts and markers -/

theorem relayGrows_markDue (s : State) (m : Marker) : RelayGrows s.relay (markDue s m).relay where
  same := by rw [markDue_relay]
  slot := by rw [markDue_relay]
  mem := fun _ hx => mem_markDue hx m
  fits := fun h => markDue_fits h m

theorem evolves_markDue (s : State) (m : Marker) : Evolves s (markDue s m) := by
  have h := relayGrows_markDue s m
  unfold markDue at h ⊢
  split at h
  · rw [if_pos ‹_›]; exact .refl s
  · rw [if_neg ‹_›]; exact .withRelay h

theorem evolves_loseAlert (s : State) : Evolves s (loseAlert s) := by
  have kept : ∀ o : Option Reply, (o.map fun r => { r with clearsLost := false }).map Reply.data = o.map Reply.data := by
    rintro (_ | _) <;> rfl
  exact (Evolves.withHandler (k := (loseAlert s).handler) ⟨rfl, kept _, fun _ h => h, id⟩).trans
    (.withRelay ⟨rfl, kept _, fun _ h => h, fun h => ⟨h, rfl⟩⟩)

theorem evolves_postAlert (s : State) (a : Alert) : Evolves s (postAlert s a) := by
  rcases postAlert_cases s a with ⟨hroom, h⟩ | ⟨-, h⟩
  · rw [h]
    exact .withHandler ⟨rfl, rfl, fun x hx => by simp [hx], fun _ => by simpa using hroom⟩
  · rw [h]; exact evolves_loseAlert s

/-! ### Results -/

theorem evolves_writeResult (s : State) (n : StepNo) (f : StepRec → StepRec) (hl : ∀ r, (f r).list = r.list)
    (hm : ∀ r, (f r).music = r.music) : Evolves s (writeResult s n f) := by
  refine .ite (fun _ => .refl s) fun _ => .withStore ⟨rfl, rfl, rfl, fun k => ?_, fun k => ?_⟩
  · rw [vget_vset]; split
    · subst k; exact hl _
    · rfl
  · rw [vget_vset]; split
    · subst k; exact hm _
    · rfl

theorem evolves_writeSounding (s : State) (n : StepNo) (v : Sounding) : Evolves s (writeSounding s n v) :=
  evolves_writeResult s n _ (fun _ => rfl) fun _ => rfl

theorem evolves_matchStep (e : Int) (s : State) (n : StepNo) : Evolves s (matchStep e s n) :=
  evolves_writeResult s n _ (fun _ => rfl) fun _ => rfl

theorem evolves_foldl {α : Type} {f : State → α → State} (hf : ∀ s a, Evolves s (f s a)) (l : List α) (s : State) :
    Evolves s (l.foldl f s) := by
  induction l generalizing s with
  | nil => exact .refl s
  | cons a l ih => exact (hf s a).trans (ih _)

theorem evolves_writeMatch (s : State) (p : Point) (e : Int) : Evolves s (writeMatch s p e) :=
  evolves_foldl (evolves_matchStep e) _ s

/-! ### Stops and switches -/

/-- The active registration replaced and the image formed of it, before any marking. -/
theorem evolves_active (s : State) (k : Option SetNo) :
    Evolves s (s.withSched
      { s.sched with active := k, stopImage := formedImage (s.withSched { s.sched with active := k }) }) :=
  .withSched (stops := fun _ => formedImage_congr rfl rfl rfl)

theorem evolves_setActive (s : State) (k : Option SetNo) : Evolves s (setActive s k) := by
  unfold setActive reformStops
  exact .ite (fun _ => evolves_active s k) fun _ => (evolves_active s k).trans (evolves_markDue _ _)

theorem evolves_reformStops (s : State) : Evolves s (reformStops s) := evolves_setActive s s.sched.active

theorem evolves_makeSwitch (s : State) (i : EntryNo) : Evolves s (makeSwitch s i) := by
  unfold makeSwitch
  split
  · exact Evolves.trans .withSched (evolves_setActive _ _)
  · exact .refl s

theorem evolves_switchIfFinished (s : State) (i : EntryNo) : Evolves s (switchIfFinished s i) := by
  unfold switchIfFinished
  split
  · exact .ite (fun _ => evolves_makeSwitch s i) fun _ => .refl s
  · exact .refl s

theorem evolves_waitingSwitches (s : State) : Evolves s (waitingSwitches s) := by
  have next : ∀ u, Evolves s u → Evolves s (match engagedIndex u with
      | some j => switchIfFinished u j
      | none => u) := fun u hu => by
    split
    · exact hu.trans (evolves_switchIfFinished u _)
    · exact hu
  refine next _ ?_
  split
  · exact evolves_switchIfFinished s _
  · exact .refl s

theorem evolves_clearRegistration (s : State) : Evolves s (clearRegistration s) :=
  Evolves.trans .withSched (evolves_setActive _ _)

/-! ### The clock -/

/-- Period `p` may be installed: it lies in the follow profile's range whenever that range is sound. -/
def PeriodFits (s : State) (p : Nat) : Prop :=
  PeriodInRange s → s.tables.follow.pmin ≤ p ∧ p ≤ s.tables.follow.pmax

theorem clampNat_range {lo hi : Nat} (h : lo ≤ hi) (x : Nat) : lo ≤ clampNat lo hi x ∧ clampNat lo hi x ≤ hi := by
  unfold clampNat; omega

theorem PeriodInRange.pmin_le_pmax {s : State} (h : PeriodInRange s) : s.tables.follow.pmin ≤ s.tables.follow.pmax := by
  obtain ⟨-, hlo, hhi, -⟩ := h
  exact hlo.trans hhi

theorem periodFits_clamp (s : State) (p : Nat) : PeriodFits s (clampPeriod s p) := fun h => clampNat_range h.pmin_le_pmax p

theorem periodFits_same (s : State) : PeriodFits s s.clock.period := fun ⟨_, hlo, hhi, _⟩ => ⟨hlo, hhi⟩

theorem PeriodFits.of_evolves {s t : State} {p : Nat} (h : s.tables.follow.pmin ≤ s.tables.follow.pmax → 
    s.tables.follow.pmin ≤ p ∧ p ≤ s.tables.follow.pmax) (ht : t.tables = s.tables) : PeriodFits t p := fun hr => by
  have := hr.pmin_le_pmax
  rw [ht] at this ⊢
  exact h this

/-- A clock of a fitting period and of a pending tempo that stood or is none may be installed. -/
theorem evolves_withClock {s : State} {c : Clock} (hp : PeriodFits s c.period)
    (ht : c.pendingTempo = s.clock.pendingTempo ∨ c.pendingTempo = none) : Evolves s (s.withClock c) := by
  refine .withClock fun h => ?_
  obtain ⟨h1, -, -, h4, h5⟩ := id h
  obtain ⟨hlo, hhi⟩ := hp h
  refine ⟨h1, hlo, hhi, h4, fun p hpt => ?_⟩
  rcases ht with ht | ht
  · exact h5 p (ht ▸ hpt)
  · rw [State.withClock_clock, ht] at hpt; cases hpt

theorem evolves_raiseHighest (s : State) (x : Pos) (t : PartTime) : Evolves s (raiseHighest s x t) := by
  have rise : ∀ h b, Evolves s (s.withClock { s.clock with highest := h, beats := b }) := fun _ _ =>
    evolves_withClock (periodFits_same s) (.inl rfl)
  exact .ite (fun _ => (rise _ _).trans (evolves_postAlert _ _)) fun _ => rise _ _

theorem evolves_applyPendingTempo (s : State) (x : Pos) : Evolves s (applyPendingTempo s x) := by
  unfold applyPendingTempo
  split
  · exact evolves_withClock (periodFits_clamp s _) (.inr rfl)
  · exact .refl s

theorem evolves_riseTo (s : State) (x : Pos) (t : PartTime) (now : Pos) : Evolves s (riseTo s x t now) :=
  .ite (fun _ => evolves_raiseHighest s x t) fun _ => (evolves_raiseHighest s x t).trans (evolves_applyPendingTempo _ _)

theorem evolves_installAnchor {s : State} {p : Nat} (hp : PeriodFits s p) (ta : PartTime) (xa : Pos) :
    Evolves s (installAnchor s ta xa p) := by
  unfold installAnchor
  split
  · exact .ite (fun _ => evolves_withClock hp (.inl rfl)) fun _ => evolves_withClock hp (.inl rfl)
  · exact evolves_withClock hp (.inl rfl)

theorem evolves_reanchor {s : State} {p : Nat} (hp : PeriodFits s p) (ta : PartTime) (xa : Pos) :
    Evolves s (reanchor s ta xa p) := (evolves_installAnchor hp ta xa).trans (evolves_riseTo _ _ _ _)

theorem evolves_changePeriod {s : State} {p : Nat} (hp : PeriodFits s p) : Evolves s (changePeriod s p) := by
  unfold changePeriod
  split
  · exact evolves_withClock hp (.inl rfl)
  · exact evolves_reanchor hp _ _

theorem evolves_riseAtStop (s : State) : Evolves s (riseAtStop s) := by
  unfold riseAtStop
  split
  · exact .refl s
  · exact evolves_raiseHighest s _ _

theorem evolves_stopClock (s : State) (zero : Bool) : Evolves s (stopClock s zero) :=
  (evolves_riseAtStop s).trans (evolves_withClock (periodFits_same _) (.inr rfl))

theorem periodFits_corrected (s : State) (e : Int) (both : Bool) :
    PeriodFits s (correctedPeriod s.tables.follow s.clock.period e both) := by
  intro h
  unfold correctedPeriod
  split
  · exact clampNat_range h.pmin_le_pmax _
  · exact periodFits_same s h

theorem evolves_correct (s : State) (tOn : PartTime) (e : Int) (both : Bool) : Evolves s (correct s tOn e both) := by
  have hp := periodFits_corrected s e both
  simp only [correct]
  split
  · exact .refl s
  · exact evolves_reanchor hp _ _
  · exact .ite (fun _ => evolves_reanchor hp _ _) fun _ => evolves_reanchor hp _ _

theorem evolves_dropPending (s : State) : Evolves s (s.withClock { s.clock with pendingTempo := none }) :=
  evolves_withClock (periodFits_same s) (.inr rfl)

theorem evolves_crossBoundary (s : State) : Evolves s (crossBoundary s) := by
  have rise := evolves_raiseHighest s (nextBoundary s) (reachTime s (nextBoundary s))
  unfold crossBoundary
  split
  · refine rise.trans ((evolves_dropPending _).trans (evolves_reanchor ?_ _ _))
    exact .of_evolves (fun h => clampNat_range h _) (by simp)
  · exact rise

theorem evolves_renewAnchor (s : State) : Evolves s (renewAnchor s) := evolves_withClock (periodFits_same s) (.inl rfl)

theorem evolves_holdClock (s : State) (x : Pos) : Evolves s (holdClock s x) :=
  (evolves_withClock (s := s) (c := { s.clock with state := .held, t0 := s.partTime, x0 := x }) (periodFits_same s)
    (.inl rfl)).trans (evolves_riseTo _ _ _ _)

end Machine

end Sys2Proof
end

section
/-! PROOF. What the scheduler's operations may change: the issue queues stay within their size and in the order of R129, the hold
counts within 15, and a division under override silent. -/

namespace Sys2Proof

namespace Machine

set_option Elab.async false

/-! ### Queues that lose actions and keys -/

/-- Where the actions of a queue stand, and their kinds. -/
def places (q : List Action) : List (Pos × ActKind) := q.map fun a => (a.pos, a.kind)

/-- Queue `p` is queue `q` with actions gone, or with other keys. -/
def Thinner (p q : List Action) : Prop := (places p).Sublist (places q)

/-- A queue within its size and in the order of R129. -/
def QueueFits (q : List Action) : Prop := q.length ≤ 48 ∧ q.Pairwise InOrder

theorem Thinner.refl (q : List Action) : Thinner q q := List.Sublist.refl _

theorem Thinner.trans {p q r : List Action} (h1 : Thinner p q) (h2 : Thinner q r) : Thinner p r := List.Sublist.trans h1 h2

theorem Thinner.of_sublist {p q : List Action} (h : p.Sublist q) : Thinner p q := h.map _

theorem Thinner.of_places {p q : List Action} (h : places p = places q) : Thinner p q := by
  unfold Thinner; rw [h]

theorem Thinner.length_le {p q : List Action} (h : Thinner p q) : p.length ≤ q.length := by
  simpa [places] using List.Sublist.length_le h

theorem Thinner.eq_nil {p : List Action} (h : Thinner p []) : p = [] := List.eq_nil_of_length_eq_zero (by simpa using h.length_le)

theorem pairwise_places (q : List Action) :
    q.Pairwise InOrder ↔ (places q).Pairwise fun a b => a.1 < b.1 ∨ (a.1 = b.1 ∧ (a.2 = .press → b.2 = .press)) := by
  unfold places
  rw [List.pairwise_map]
  rfl

theorem QueueFits.thinner {p q : List Action} (hq : QueueFits q) (h : Thinner p q) : QueueFits p :=
  ⟨h.length_le.trans hq.1, (pairwise_places p).mpr (((pairwise_places q).mp hq.2).sublist h)⟩

theorem places_map {q : List Action} {f : Action → Action} (hf : ∀ a, (f a).pos = a.pos ∧ (f a).kind = a.kind) :
    places (q.map f) = places q := by
  simp [places, Function.comp_def, hf]

theorem thinner_map {q : List Action} {f : Action → Action} (hf : ∀ a, (f a).pos = a.pos ∧ (f a).kind = a.kind) :
    Thinner (q.map f) q := .of_places (places_map hf)

theorem thinner_replace {q : List Action} {a b : Action} (hpos : b.pos = a.pos) (hkind : b.kind = a.kind) :
    Thinner (q.replace a b) q := by
  refine .of_places ?_
  induction q with
  | nil => rfl
  | cons c q ih =>
    rw [List.replace_cons]
    split
    · rename_i hac
      have : a = c := by simpa using hac
      simp [places, hpos, hkind, this]
    · simpa [places] using ih

theorem thinner_foldl {α : Type} {f : List Action → α → List Action} (hf : ∀ q k, Thinner (f q k) q) (l : List α)
    (q : List Action) : Thinner (l.foldl f q) q := by
  induction l generalizing q with
  | nil => exact .refl q
  | cons k l ih => exact (ih _).trans (hf q k)

theorem thinner_tieKey (x : Pos) (acc : List Action × List Key × List HeldKey) (k : Key) : Thinner (tieKey x acc k).1 acc.1 := by
  unfold tieKey
  split
  · simp only
    split
    · exact .of_sublist List.erase_sublist
    · exact thinner_replace rfl rfl
  · exact .refl _

theorem thinner_applyTie (q : List Action) (x : Pos) (keys : List Key) : Thinner (applyTie q x keys).1 q := by
  have h : ∀ acc, Thinner (keys.foldl (tieKey x) acc).1 acc.1 := by
    induction keys with
    | nil => exact fun acc => .refl _
    | cons k keys ih => exact fun acc => (ih _).trans (thinner_tieKey x acc k)
  exact h _

theorem thinner_dropFrom (q : List Action) (a : Action) : Thinner (dropFrom q a) q := by
  refine (thinner_foldl (fun q k => thinner_map fun b => ?_) _ _).trans
    ((Thinner.of_sublist List.filter_sublist).trans ((thinner_map fun b => ?_).trans (.of_sublist List.erase_sublist)))
  · split
    · split <;> exact ⟨rfl, rfl⟩
    · exact ⟨rfl, rfl⟩
  · unfold keepHeld; split <;> exact ⟨rfl, rfl⟩

theorem thinner_capKey (a : Action) (q : List Action) (k : Key) : Thinner (capKey a q k) q := by
  unfold capKey
  split <;> refine thinner_map fun b => ?_ <;> split <;> exact ⟨rfl, rfl⟩

theorem thinner_pressKeys (a : Action) (keys : List Key) (acc : List Action × Vector Nat 61) :
    Thinner (keys.foldl (pressKeys a) acc).1 acc.1 := by
  induction keys generalizing acc with
  | nil => exact .refl _
  | cons k keys ih =>
    refine (ih _).trans ?_
    unfold pressKeys
    split
    · exact thinner_capKey a _ k
    · exact .refl _

/-! ### Hold counts -/

/-- Issuing presses, no key passes the count 15. -/
theorem pressKeys_le (a : Action) (keys : List Key) (acc : List Action × Vector Nat 61) (h : ∀ k, vget acc.2 k ≤ 15) (k : Key) :
    vget (keys.foldl (pressKeys a) acc).2 k ≤ 15 := by
  induction keys generalizing acc with
  | nil => exact h k
  | cons j keys ih =>
    refine ih _ fun i => ?_
    unfold pressKeys
    split
    · exact h i
    · rename_i hlt
      rw [vget_vset]
      split
      · omega
      · exact h i

theorem releaseKey_le (t : PartTime) (keys : List Key) (acc : Vector Nat 61 × Vector (Option PartTime) 61) (k : Key) :
    vget (keys.foldl (releaseKey t) acc).1 k ≤ vget acc.1 k := by
  induction keys generalizing acc with
  | nil => exact le_rfl
  | cons j keys ih =>
    refine (ih _).trans ?_
    unfold releaseKey
    rw [vget_vset]
    split
    · subst j; exact Nat.sub_le _ _
    · exact le_rfl

/-! ### The scheduler's state -/

/-- A queue is replaced by one that fits, and stays empty under override. -/
theorem evolves_withQueue_of {s : State} {d : Division} {q : List Action} (fits : QueueFits (queue s d) → QueueFits q)
    (silent : OverrideSilent s → overridden s d = true → q = []) : Evolves s (withQueue s d q) := by
  refine .withSched (queues := fun h e => ?_) (silent := fun h e he => ?_)
  · change (queue (withQueue s d q) e).length ≤ 48 ∧ (queue (withQueue s d q) e).Pairwise InOrder
    rw [queue_withQueue]
    split
    · exact fits (h d)
    · exact h e
  · change queue (withQueue s d q) e = [] ∧ _
    rw [queue_withQueue]
    refine ⟨?_, (h e he).2⟩
    split
    · subst e; exact silent h he
    · exact (h e he).1

theorem evolves_withQueue {s : State} {d : Division} {q : List Action} (h : Thinner q (queue s d)) :
    Evolves s (withQueue s d q) :=
  evolves_withQueue_of (fun hq => hq.thinner h) fun hs hd => (((hs d hd).1 ▸ h : Thinner q [])).eq_nil

/-- Actions leave a queue and its division's hold counts move: bounded still, and at 0 when the queue was empty and they were 0. -/
theorem evolves_withHolds {s : State} {d : Division} {q : List Action} {v : Vector Nat 61} (thin : Thinner q (queue s d))
    (bounded : (∀ k, vget (s.sched.holds.get d) k ≤ 15) → ∀ k, vget v k ≤ 15)
    (silent : queue s d = [] → (∀ k, vget (s.sched.holds.get d) k = 0) → ∀ k, vget v k = 0) :
    Evolves s (withHolds (withQueue s d q) d v) := by
  have moved : Evolves s (withQueue s d q) := evolves_withQueue thin
  refine .withSched (queues := moved.queues) (holds := fun h e k => ?_) (silent := fun h e he => ⟨(moved.silent h e he).1, fun k => ?_⟩)
  · change vget ((s.sched.holds.set d v).get e) k ≤ 15
    rw [PerDiv.get_set]
    split
    · exact bounded (h d) k
    · exact h e k
  · change vget ((s.sched.holds.set d v).get e) k = 0
    rw [PerDiv.get_set]
    split
    · subst e; exact silent (h d he).1 (h d he).2 k
    · exact (h e he).2 k

theorem evolves_withWalk (s : State) (w : WalkSel) (p : Option Nat) : Evolves s (withWalk s w p) := by
  cases w <;> exact .withSched

theorem evolves_withStall (s : State) (w : Option Stall) : Evolves s (withStall s w) := .withSched

/-! ### Placing -/

theorem dealOf_place {s : State} {i : EntryNo} {o : Pos} {n : StepNo} (h : dealOf s i o n = .place) :
    overridden s (stepRec s n).music.division = false ∧ hasRoom s (stepRec s n).music.division = true := by
  unfold dealOf at h
  simp only at h
  split_ifs at h
  simp_all

/-- A step is placed in a queue with two free places, of a division not under override. -/
theorem evolves_placeStep {s : State} {i : EntryNo} {o : Pos} {n : StepNo}
    (hd : overridden s (stepRec s n).music.division = false) (hroom : hasRoom s (stepRec s n).music.division = true) :
    Evolves s (placeStep s i o n) := by
  have room : (queue s (stepRec s n).music.division).length + 2 ≤ 48 := by simpa [hasRoom, Config.queueMax] using hroom
  refine Evolves.trans (evolves_withQueue_of (fun hq => ?_) fun _ ho => by simp [ho] at hd) (evolves_writeSounding _ n _)
  have thin : ∀ c : Bool, Thinner (if c then applyTie (queue s (stepRec s n).music.division) (pressPos s o n) (effectiveKeys s i n)
      else (queue s (stepRec s n).music.division, effectiveKeys s i n, [])).1 (queue s (stepRec s n).music.division) := fun c => by
    split
    · exact thinner_applyTie _ _ _
    · exact .refl _
  obtain ⟨hlen, hord⟩ := hq.thinner (thin (stepRec s n).music.tie)
  have hle := (thin (stepRec s n).music.tie).length_le
  refine ⟨?_, insertAction_ordered (insertAction_ordered hord _) _⟩
  rw [insertAction_length, insertAction_length]
  omega

theorem evolves_dealWith (s : State) (c : Bool) (i : EntryNo) (o : Pos) (n : StepNo) : Evolves s (dealWith s c i o n) := by
  unfold dealWith
  split
  · exact evolves_withStall s _
  · exact (evolves_writeSounding s n _).trans (evolves_withStall _ _)
  · exact evolves_withStall s _
  · rename_i hdeal
    obtain ⟨hd, hroom⟩ := dealOf_place hdeal
    exact (evolves_placeStep hd hroom).trans (evolves_withStall _ _)

theorem evolves_placeFromWalk (s : State) (w : WalkSel) : Evolves s (placeFromWalk s w) := by
  unfold placeFromWalk
  split
  · exact .ite (fun _ => evolves_dealWith s _ _ _ _) fun _ =>
      (evolves_dealWith s _ _ _ _).trans ((evolves_withWalk _ w _).trans (evolves_waitingSwitches _))
  · exact .refl s

theorem evolves_placeFromCatchUp (s : State) (d : Division) : Evolves s (placeFromCatchUp s d) := by
  unfold placeFromCatchUp
  split
  · exact .ite (fun _ => evolves_dealWith s _ _ _ _) fun _ =>
      (evolves_dealWith s _ _ _ _).trans (Evolves.trans .withSched (evolves_waitingSwitches _))
  · exact .refl s

/-! ### Issue -/

theorem evolves_dropPress (s : State) (d : Division) (a : Action) : Evolves s (dropPress s d a) :=
  (evolves_withQueue (thinner_dropFrom _ a)).trans (evolves_writeSounding _ _ _)

theorem evolves_markIfChanged (d : Division) (old : BitVec 64) (s : State) : Evolves s (markIfChanged d old s) :=
  .ite (fun _ => .refl s) fun _ => evolves_markDue s _

theorem evolves_raiseBoost (s : State) (d : Division) (i : EntryNo) : Evolves s (raiseBoost s d i) := .withDetector rfl

/-- The keys of a press go down: its queue still holds it, so its division is not under override. -/
theorem evolves_pressMove {s : State} {d : Division} {a : Action} (ha : a ∈ queue s d) :
    let moved := a.keys.foldl (pressKeys a) ((queue s d).erase a, s.sched.holds.get d)
    Evolves s (withHolds (withQueue s d moved.1) d moved.2) :=
  evolves_withHolds ((thinner_pressKeys a a.keys _).trans (.of_sublist List.erase_sublist))
    (fun hb => pressKeys_le a a.keys _ hb) fun he => by simp [he] at ha

theorem queue_of_sameActions {s t : State} (h : SameActions s t) (d : Division) : queue t d = queue s d := by
  rw [queue, h]; rfl

theorem evolves_issuePress {s : State} {d : Division} {a : Action} (ha : a ∈ queue s d) : Evolves s (issuePress s d a) := by
  simp only [issuePress]
  have switched : ∀ c : Prop, [Decidable c] → Evolves s (if c then makeSwitch s a.entry else s) ∧
      a ∈ queue (if c then makeSwitch s a.entry else s) d := fun c _ => by
    split
    · exact ⟨evolves_makeSwitch s _, by rwa [queue_of_sameActions (makeSwitch_actions s _)]⟩
    · exact ⟨.refl s, ha⟩
  obtain ⟨h1, ha1⟩ := switched (a.entry.val ≠ 0 ∧ !switchMade s a.entry)
  have issued := fun old v => (h1.trans (evolves_pressMove ha1)).trans
    ((evolves_markIfChanged d old _).trans (evolves_writeSounding _ a.step v))
  exact .ite (fun _ => (issued _ _).trans (evolves_raiseBoost _ _ _)) fun _ => issued _ _

theorem evolves_examinePress {s : State} {d : Division} {a : Action} (ha : a ∈ queue s d) : Evolves s (examinePress s d a) := by
  refine .ite (fun _ => evolves_dropPress s d a) fun _ => ?_
  split
  · exact evolves_withQueue (thinner_replace rfl rfl)
  · exact evolves_issuePress ha

theorem evolves_issueRelease (s : State) (d : Division) (a : Action) : Evolves s (issueRelease s d a) := by
  have le := releaseKey_le s.partTime a.keys (s.sched.holds.get d, s.sched.keyUps.get d)
  refine Evolves.trans ((evolves_withHolds (.of_sublist List.erase_sublist) (fun hb k => (le k).trans (hb k))
    fun _ hz k => ?_).trans .withSched) (evolves_markIfChanged _ _ _)
  have := le k
  rw [hz k] at this
  exact Nat.le_zero.mp this

theorem mem_of_firstReady {s : State} {d : Division} {a : Action} (h : firstReady s d = some a) : a ∈ queue s d :=
  List.mem_of_find?_eq_some h

theorem evolves_pressNow (s : State) (d : Division) : Evolves s (pressNow s d) := by
  unfold pressNow
  split
  · rename_i h
    exact (evolves_examinePress (mem_of_firstReady (Option.filter_eq_some_iff.mp h).1)).trans (evolves_waitingSwitches _)
  · exact .refl s

theorem evolves_releaseNow (s : State) (d : Division) : Evolves s (releaseNow s d) := by
  unfold releaseNow
  split
  · exact (evolves_issueRelease s d _).trans (evolves_waitingSwitches _)
  · exact .refl s

theorem evolves_forgetKeyUp (s : State) (d : Division) (k : Key) : Evolves s (forgetKeyUp s d k) := .withSched

/-! ### Purge, stop and resumption -/

theorem evolves_purge (s : State) (d : Division) : Evolves s (purge s d) := by
  have emptied : Evolves s (withHolds (withQueue s d []) d (Vector.replicate 61 0)) :=
    evolves_withHolds (List.nil_sublist _) (fun _ k => by simp) fun _ _ k => by simp
  exact .ite (fun _ => emptied.trans .withSched) fun _ => (emptied.trans .withSched).trans (evolves_markDue _ _)

theorem evolves_purgeAll (s : State) : Evolves s (purgeAll s) := evolves_foldl evolves_purge _ s

theorem evolves_discardWalks (s : State) : Evolves s (discardWalks s) := .withSched

theorem evolves_resumeDivision (s : State) (d : Division) : Evolves s (resumeDivision s d) := by
  unfold resumeDivision
  split
  · exact .refl s
  · exact .withSched

end Machine

end Sys2Proof
end

section
/-! PROOF. What the detector's and the follower's operations may change: confidence agrees, the window list stays in order, the lock
set clear of the command in flight. -/

namespace Sys2Proof

namespace Machine

set_option Elab.async false

/-! ### The detector's own changes -/

theorem evolves_mapChannels (s : State) (f : Fin 4 → Channel → Channel) : Evolves s (mapChannels s f) := .withDetector rfl

theorem evolves_enterFrame (s : State) (last seq : Byte) (levels : List Nat) : Evolves s (enterFrame s last seq levels) :=
  (evolves_mapChannels s _).trans (.withDetector rfl)

theorem evolves_freshen (s : State) (seq : Byte) (levels : List Nat) : Evolves s (freshen s seq levels) :=
  (evolves_mapChannels s _).trans (Evolves.trans (.withDetector (by rfl)) (evolves_postAlert _ _))

theorem evolves_testFiring (s : State) : Evolves s (testFiring s) := by
  unfold testFiring
  split
  · exact .refl s
  · exact Evolves.trans (.withDetector (by rfl)) (evolves_mapChannels _ _)

theorem evolves_withCutoff (s : State) (c : CutoffState) : Evolves s (withCutoff s c) := .withDetector rfl

theorem evolves_restDetector (s : State) : Evolves s (restDetector s) := (evolves_mapChannels s _).trans (.withDetector rfl)

theorem evolves_becomeStale (s : State) : Evolves s (becomeStale s) :=
  (evolves_restDetector s).trans (Evolves.trans (.withDetector (by rfl)) (evolves_postAlert _ _))

theorem evolves_endBoost (s : State) : Evolves s (endBoost s) := .withDetector rfl

theorem evolves_restartDetector (s : State) : Evolves s (restartDetector s) :=
  (evolves_restDetector s).trans (evolves_endBoost _)

/-! ### Stop point, locks and play states -/

theorem windowOrdered_nil {s : State} (h : s.follower.window = []) : WindowOrdered s := by simp [WindowOrdered, h]

theorem windowOrdered_filter {s t : State} {p : Point → Bool} (h : t.follower.window = s.follower.window.filter p)
    (hs : WindowOrdered s) : WindowOrdered t := by
  unfold WindowOrdered
  rw [h]
  exact ⟨(List.length_filter_le _ _).trans hs.1, hs.2.filter _⟩

theorem locksClear_nil {s t : State} (h : t.follower.lockSet = []) (ht : t.tables = s.tables) (hs : LocksClear s) :
    LocksClear t := by
  refine ⟨by simp [h], fun i => ?_⟩
  rw [planEntry, ht]
  exact hs.2 i

theorem evolves_withPlay (s : State) (p : Play) : Evolves s (withPlay s p) := .withFollower

theorem evolves_formStop (s : State) : Evolves s (formStop s) := .ite (fun _ => .withFollower) fun _ => .refl s

/-- The lists play calls for are lists of plan entries. -/
theorem calledLists_of_plan {s : State} {l : ListNo} (h : l ∈ calledLists s) : ∃ i, l = (planEntry s i).list := by
  unfold calledLists at h
  split at h
  · simp only [List.mem_eraseDups, List.mem_cons, List.not_mem_nil, or_false] at h
    rcases h with h | h <;> exact ⟨_, h⟩
  · exact ⟨_, List.mem_singleton.mp h⟩
  · cases h

theorem locksClear_formLocks {s : State} (h : LocksClear s) : LocksClear (formLocks s) := by
  refine ⟨fun l hl => ?_, h.2⟩
  obtain ⟨hcalled, hfree⟩ := List.mem_filter.mp hl
  obtain ⟨i, rfl⟩ := calledLists_of_plan hcalled
  refine ⟨h.2 i, ?_⟩
  simp only [Bool.or_eq_true, Bool.not_eq_true'] at hfree
  rcases hfree with hlocked | hfree
  · exact (h.1 _ (List.contains_iff_mem.mp hlocked)).2
  · exact hfree

theorem calledLocked_formLocks (s : State) : CalledLocked (formLocks s) := fun hs ht => by
  have free : ∀ l, involved s l = false := fun l => by
    have hs : s.ctl.cmd.source = none := hs
    have ht : s.ctl.cmd.target = none := ht
    simp [involved, involvedLists, hs, ht]
  change (calledLists s).filter (fun l => listLocked s l || !involved s l) = calledLists s
  exact List.filter_eq_self.mpr fun l _ => by simp [free]

/-- The follower changed and its locks formed afresh. -/
theorem evolves_relocked {s : State} {f : Follower} (hl : f.lockSet = s.follower.lockSet)
    (conf : ConfidenceSound s → ConfidenceSound (s.withFollower f) := by exact id)
    (window : WindowOrdered s → WindowOrdered (s.withFollower f) := by exact id) : Evolves s (formLocks (s.withFollower f)) :=
  .withFollower (conf := conf) (window := window)
    (locks := fun h => locksClear_formLocks (s := s.withFollower f) ⟨fun l hm => h.1 l (hl ▸ hm), h.2⟩)
    (called := fun _ => calledLocked_formLocks (s.withFollower f))

theorem evolves_formLocks (s : State) : Evolves s (formLocks s) := evolves_relocked (f := s.follower) rfl

theorem evolves_enterHolding (s : State) (x : Pos) : Evolves s (enterHolding s x) :=
  Evolves.trans .withFollower (evolves_postAlert _ _)

theorem evolves_enterEnding (s : State) (x : Pos) : Evolves s (enterEnding s x) :=
  .withFollower (window := fun _ => windowOrdered_nil rfl)

theorem evolves_enterWaiting (s : State) (i : EntryNo) (x : Pos) : Evolves s (enterWaiting s i x) :=
  (evolves_withClock (c := { s.clock with state := .held, t0 := s.partTime, x0 := x }) (periodFits_same s) (.inl rfl)).trans
    .withFollower

/-! ### Starting an entry -/

theorem evolves_makeCurrent (s : State) (i : EntryNo) : Evolves s (makeCurrent s i) :=
  Evolves.trans .withSched (evolves_relocked rfl)

theorem evolves_applyEntryTempo (s : State) (i : EntryNo) : Evolves s (applyEntryTempo s i) := by
  unfold applyEntryTempo
  split
  · exact (evolves_dropPending s).trans (evolves_changePeriod (periodFits_clamp _ _))
  · exact .refl s

theorem evolves_releasePassed (s : State) : Evolves s (releasePassed s) := by
  unfold releasePassed
  split
  · exact .ite (fun _ => .withFollower) fun _ => .refl s
  · exact .refl s

theorem evolves_resumeClock (s : State) : Evolves s (resumeClock s) := by
  unfold resumeClock
  split
  · exact evolves_reanchor (periodFits_same s) _ _
  · exact .refl s

theorem evolves_beginAt (s : State) (o x : Pos) : Evolves s (beginAt s o x) :=
  Evolves.trans .withFollower (Evolves.trans .withSched ((evolves_releasePassed _).trans (evolves_formStop _)))

theorem evolves_postPhrase (s : State) (i : EntryNo) (m : Manner) : Evolves s (postPhrase s i m) := evolves_postAlert s _

theorem evolves_beginOrgan (s : State) (i : EntryNo) (o x : Pos) (m : Manner) : Evolves s (beginOrgan s i o x m) :=
  (evolves_beginAt s o x).trans ((evolves_postPhrase _ i m).trans ((evolves_resumeClock _).trans (evolves_waitingSwitches _)))

theorem evolves_enterEntry (s : State) (i : EntryNo) (x : Pos) : Evolves s (enterEntry s i x) := by
  have entered : Evolves s (applyEntryTempo (makeCurrent s i) i) := (evolves_makeCurrent s i).trans (evolves_applyEntryTempo _ i)
  simp only [enterEntry]
  split
  · exact entered.trans (evolves_beginOrgan _ _ _ _ _)
  · exact entered.trans ((evolves_enterWaiting _ _ _).trans (evolves_waitingSwitches _))

theorem evolves_settleFor (n : Nat) (s : State) : Evolves s (settleFor n s) := by
  induction n generalizing s with
  | zero => exact .refl s
  | succ n ih =>
    unfold settleFor
    split
    · split
      · split
        · exact (evolves_enterEntry s _ _).trans (ih _)
        · exact evolves_enterHolding s _
      · exact evolves_enterEnding s _
      · exact (evolves_enterEntry s _ _).trans (ih _)
      · exact evolves_enterEnding s _
    · exact .refl s

theorem evolves_settle (s : State) : Evolves s (settle s) := evolves_settleFor 65 s

theorem evolves_applyPeriod (s : State) (p : Nat) : Evolves s (applyPeriod s p) :=
  (evolves_changePeriod (periodFits_clamp s p)).trans (evolves_settle _)

/-- START: entry 0's list is not involved in a command in flight. -/
theorem evolves_startPlay {s : State} (request : Option Nat) (hlist : involved s (planEntry s 0).list = false) :
    Evolves s (startPlay s request) := by
  have clock : Evolves s (s.withClock { s.clock with
      state := .held, t0 := s.partTime, x0 := 0, period := startPeriod s request, pendingTempo := none, highest := 0
      beats := 0 }) := evolves_withClock (periodFits_clamp s _) (.inr rfl)
  have begun : Evolves s ((s.withClock { s.clock with
      state := .held, t0 := s.partTime, x0 := 0, period := startPeriod s request, pendingTempo := none, highest := 0
      beats := 0 }).withFollower (startFollower s)) := clock.trans <| .withFollower
    (conf := fun ⟨hc, _, h⟩ => ⟨hc, Nat.zero_le _, h⟩)
    (window := fun _ => windowOrdered_nil rfl)
    (locks := fun h => ⟨fun l hl => by rw [List.mem_singleton.mp hl]; exact ⟨h.2 0, hlist⟩, h.2⟩)
    (called := fun _ _ _ => rfl)
  simp only [startPlay]
  split
  · exact begun.trans (Evolves.trans .withSched ((evolves_makeSwitch _ _).trans
      ((evolves_beginOrgan _ _ _ _ _).trans (evolves_settle _))))
  · exact begun.trans (Evolves.trans .withSched ((evolves_makeSwitch _ _).trans (evolves_enterWaiting _ _ _)))

/-! ### Finishing and confidence -/

theorem evolves_finishPlay (s : State) : Evolves s (finishPlay s) := by
  unfold finishPlay
  split
  · exact .refl s
  · exact .refl s
  · exact Evolves.trans .withFollower (evolves_enterEnding _ _)
  · exact .ite (fun _ => .refl s) fun _ => Evolves.trans .withFollower (evolves_formStop _)

theorem confidenceSound_confOf {s : State} {n : Nat} (hn : n ≤ 255) (hr : s.follower.run ≤ 8) :
    ConfidenceSound (setConf s n (confOf n) s.follower.run) := by
  refine ⟨hn, hr, ?_, ?_, ?_⟩ <;>
  · simp only [setConf, State.withFollower_follower, confOf]
    split <;> intro h
    · first | exact absurd h (by decide) | omega
    · first | exact absurd h (by decide) | omega

theorem evolves_warnRise (s : State) (old new : Nat) : Evolves s (warnRise s old new) :=
  .ite (fun _ => evolves_postAlert s _) fun _ => .refl s

theorem evolves_announce (found : Conf) (s : State) : Evolves s (announce found s) :=
  .ite (fun _ => .refl s) fun _ => evolves_postAlert s _

theorem evolves_confRise (s : State) (n : Nat) : Evolves s (confRise s n) := by
  unfold confRise
  split
  · exact .withFollower (conf := fun ⟨hc, _, h⟩ => ⟨hc, Nat.zero_le _, h⟩)
  · have lost : Evolves (warnRise s s.follower.counter 255) (setConf (warnRise s s.follower.counter 255) 255 .lost 0) :=
      .withFollower (conf := fun _ => ⟨le_rfl, Nat.zero_le _, fun _ => rfl, nofun, nofun⟩)
    refine .ite (fun _ => .ite (fun _ => ?_) fun _ => (evolves_warnRise s _ _).trans lost) fun hle => ?_
    · exact (evolves_warnRise s _ _).trans (lost.trans (evolves_finishPlay _))
    · refine (evolves_warnRise s _ _).trans (.withFollower (conf := fun h => ?_))
      have := confidenceSound_confOf (s := warnRise s s.follower.counter (s.follower.counter + n)) (Nat.not_lt.mp hle) h.2.1
      simpa [setConf] using this

theorem evolves_confMatch (s : State) : Evolves s (confMatch s) := by
  unfold confMatch
  split
  · exact .withFollower (conf := fun ⟨hc, _, h⟩ => ⟨hc, min_le_left _ _, h⟩)
  · exact .withFollower (conf := fun h => confidenceSound_confOf ((Nat.sub_le _ _).trans h.1) h.2.1)

theorem evolves_recoverConf (s : State) : Evolves s (recoverConf s) :=
  .withFollower (conf := fun _ => ⟨Nat.zero_le _, Nat.zero_le _, nofun, fun _ => by simp, nofun⟩)

/-! ### The window list -/

theorem insertPoint_perm (w : List Point) (p : Point) : (insertPoint w p).Perm (p :: w) := by
  unfold insertPoint
  refine List.perm_middle.trans ?_
  rw [List.takeWhile_append_dropWhile]

theorem insertPoint_ordered {w : List Point} (h : w.Pairwise fun p q => p.pos ≤ q.pos) (p : Point) :
    (insertPoint w p).Pairwise fun p q => p.pos ≤ q.pos := by
  induction w with
  | nil => simp [insertPoint]
  | cons q rest ih =>
    rw [List.pairwise_cons] at h
    by_cases hq : q.pos ≤ p.pos
    · have he : insertPoint (q :: rest) p = q :: insertPoint rest p := by simp [insertPoint, hq]
      rw [he, List.pairwise_cons]
      refine ⟨fun r hr => ?_, ih h.2⟩
      rcases List.mem_cons.mp ((insertPoint_perm rest p).mem_iff.mp hr) with rfl | hr
      · exact hq
      · exact h.1 r hr
    · have he : insertPoint (q :: rest) p = p :: q :: rest := by simp [insertPoint, hq]
      rw [he, List.pairwise_cons]
      refine ⟨fun r hr => ?_, List.pairwise_cons.mpr h⟩
      rcases List.mem_cons.mp hr with rfl | hr
      · exact (Int.not_le.mp hq).le
      · exact (Int.not_le.mp hq).le.trans (h.1 r hr)

theorem foldl_min_mem (l : List Pos) (x : Pos) : l.foldl min x = x ∨ l.foldl min x ∈ l := by
  induction l generalizing x with
  | nil => exact .inl rfl
  | cons y l ih =>
    rw [List.foldl_cons]
    rcases ih (min x y) with h | h
    · rw [h]
      rcases min_choice x y with hm | hm <;> rw [hm]
      · exact .inl rfl
      · exact .inr (List.mem_cons_self)
    · exact .inr (List.mem_cons_of_mem _ h)

theorem leastPos_mem {l : List Pos} {x : Pos} (h : leastPos l = some x) : x ∈ l := by
  cases l with
  | nil => cases h
  | cons y l =>
    simp only [leastPos, Option.some.injEq] at h
    rcases foldl_min_mem l y with he | he
    · rw [← h, he]; exact List.mem_cons_self
    · rw [← h]; exact List.mem_cons_of_mem _ he

theorem removeLowest_sublist (w : List Point) : (removeLowest w).Sublist w := by
  unfold removeLowest
  split
  · split
    · exact List.erase_sublist
    · exact .refl w
  · exact .refl w

/-- The lowest point of a list that holds one makes room. -/
theorem removeLowest_length {w : List Point} (h : w ≠ []) : (removeLowest w).length + 1 = w.length := by
  obtain ⟨p, rest, rfl⟩ := List.exists_cons_of_ne_nil h
  obtain ⟨x, hx⟩ : ∃ x, leastPos ((p :: rest).map Point.pos) = some x := ⟨_, rfl⟩
  obtain ⟨q, hq, hqx⟩ := List.mem_map.mp (leastPos_mem hx)
  obtain ⟨r, hr⟩ := Option.isSome_iff_exists.mp
    (List.find?_isSome (p := fun r : Point => decide (r.pos = x)).mpr ⟨q, hq, by simp [hqx]⟩)
  have hmem : r ∈ p :: rest := List.mem_of_find?_eq_some hr
  have : removeLowest (p :: rest) = (p :: rest).erase r := by simp only [removeLowest, hx, hr]
  rw [this, List.length_erase_of_mem hmem]
  exact Nat.succ_pred_eq_of_pos (List.length_pos_of_mem hmem)

theorem evolves_walkPast (s : State) (p : Point) : Evolves s (walkPast s p) := by
  refine .ite (fun _ => .withFollower) fun _ => ?_
  split
  · exact .withFollower
  · exact .refl s

theorem walkPast_window (s : State) (p : Point) : (walkPast s p).follower.window = s.follower.window := by
  simp only [walkPast]
  split
  · rfl
  · split <;> rfl

theorem evolves_openPoint (s : State) (p : Point) : Evolves s (openPoint s p) := by
  refine .ite (fun _ => evolves_walkPast s p) fun _ => (evolves_walkPast s p).trans (.withFollower (window := fun h => ?_))
  unfold WindowOrdered at h ⊢
  rw [walkPast_window] at h
  obtain ⟨hlen, hord⟩ := h
  by_cases hroom : s.follower.window.length < Config.windowMax
  · simp only [State.withFollower_follower, hroom, if_true]
    refine ⟨?_, insertPoint_ordered hord p⟩
    rw [(insertPoint_perm _ p).length_eq]
    exact hroom
  · simp only [State.withFollower_follower, hroom, if_false]
    refine ⟨?_, insertPoint_ordered (hord.sublist (removeLowest_sublist _)) p⟩
    have hne : s.follower.window ≠ [] := fun he => hroom (by rw [he]; decide)
    rw [(insertPoint_perm _ p).length_eq, List.length_cons, removeLowest_length hne]
    exact hlen

theorem evolves_openReachedFor (n : Nat) (s : State) : Evolves s (openReachedFor n s) := by
  induction n generalizing s with
  | zero => exact .refl s
  | succ n ih =>
    unfold openReachedFor
    split
    · exact (evolves_openPoint s _).trans (ih _)
    · exact .refl s

theorem evolves_openReached (s : State) : Evolves s (openReached s) := evolves_openReachedFor _ s

theorem evolves_misses (n : Nat) (s : State) : Evolves s (misses n s) := by
  induction n generalizing s with
  | zero => exact .refl s
  | succ n ih => exact (evolves_confRise s 8).trans (ih _)

theorem evolves_closePassed (s : State) : Evolves s (closePassed s) :=
  Evolves.trans (.withFollower (window := windowOrdered_filter rfl)) (evolves_misses _ _)

theorem evolves_clearBelow (s : State) (x : Pos) : Evolves s (clearBelow s x) :=
  .withFollower (window := windowOrdered_filter rfl)

theorem evolves_erasePoint (s : State) (p : Point) :
    Evolves s (s.withFollower { s.follower with window := s.follower.window.erase p }) :=
  .withFollower (window := fun h => ⟨List.length_erase_le.trans h.1, h.2.sublist List.erase_sublist⟩)

/-! ### Matching, syncs, waits and holds -/

theorem evolves_syncClock (s : State) (t : PartTime) (x : Pos) : Evolves s (syncClock s t x) := by
  unfold syncClock
  split
  · exact .refl s
  · exact evolves_reanchor (periodFits_same s) _ _

theorem evolves_hardSync (s : State) (t : PartTime) (p : Point) (e : Int) : Evolves s (hardSync s t p e) := by
  have counted : Evolves s (confMatch (writeMatch s p e)) := (evolves_writeMatch s p e).trans (evolves_confMatch _)
  have tail : ∀ u, Evolves s u → Evolves s (announce s.follower.conf
      (openReached (closePassed (clearBelow (walkPast (syncClock u t p.pos) p) p.pos)))) := fun u hu =>
    hu.trans ((evolves_syncClock u t _).trans ((evolves_walkPast _ p).trans ((evolves_clearBelow _ _).trans
      ((evolves_closePassed _).trans ((evolves_openReached _).trans (evolves_announce _ _))))))
  exact tail _ (.ite (fun _ => counted.trans (evolves_recoverConf _)) fun _ => counted)

theorem evolves_dropHold (s : State) : Evolves s (dropHold s) := .withFollower

theorem evolves_releaseStop (s : State) : Evolves s (releaseStop s) := by
  unfold releaseStop
  split
  · exact (evolves_dropHold s).trans ((evolves_withPlay _ _).trans (evolves_formStop _))
  · exact (evolves_beginAt s _ _).trans ((evolves_postPhrase _ _ _).trans (evolves_waitingSwitches _))
  · exact .refl s

theorem evolves_correctMatch (s : State) (t : PartTime) (p : Point) (e : Int) : Evolves s (correctMatch s t p e) := by
  unfold correctMatch
  split
  · exact evolves_correct s t e true
  · exact evolves_correct s t e false
  · exact .ite (fun _ => (evolves_releaseStop s).trans ((evolves_syncClock _ _ _).trans
      ((evolves_recoverConf _).trans (evolves_clearBelow _ _)))) fun _ => .refl s

theorem evolves_matchPoint (s : State) (t : PartTime) (p : Point) : Evolves s (matchPoint s t p) := by
  have matched : Evolves s (correctMatch (confMatch (writeMatch s p (p.pos - onsetPosition s t))) t p
      (p.pos - onsetPosition s t)) :=
    (evolves_writeMatch s p _).trans ((evolves_confMatch _).trans (evolves_correctMatch _ _ _ _))
  simp only [matchPoint]
  split
  · exact (matched.trans (evolves_erasePoint _ p)).trans ((evolves_closePassed _).trans ((evolves_openReached _).trans
      ((evolves_announce _ _).trans (evolves_settle _))))
  · exact (matched.trans (evolves_erasePoint _ p)).trans ((evolves_announce _ _).trans (evolves_settle _))

theorem evolves_matchOnset (s : State) (o : Onset) : Evolves s (matchOnset s o) := by
  unfold matchOnset
  split
  · exact evolves_matchPoint s _ _
  · exact (evolves_confRise s 1).trans (evolves_announce _ _)

theorem evolves_endWait (s : State) (m : Manner) : Evolves s (endWait s m) := by
  unfold endWait
  split
  · exact (evolves_beginOrgan s _ _ _ m).trans (evolves_settle _)
  · exact .refl s

theorem evolves_syncWait (s : State) (o : Onset) : Evolves s (syncWait s o) := by
  unfold syncWait
  split
  · refine .ite (fun _ => ?_) fun _ => .withFollower
    simp only
    split
    · exact (evolves_beginAt s _ _).trans ((evolves_hardSync _ _ _ _).trans ((evolves_postPhrase _ _ _).trans
        ((evolves_waitingSwitches _).trans (evolves_settle _))))
    · exact .refl s
  · exact .refl s

theorem evolves_releaseHold (s : State) : Evolves s (releaseHold s) := by
  refine .ite (fun _ => ?_) fun _ => (evolves_dropHold s).trans ((evolves_withPlay _ _).trans ((evolves_formStop _).trans
    ((evolves_resumeClock _).trans (evolves_settle _))))
  split
  · exact (evolves_dropHold s).trans ((evolves_enterEntry _ _ _).trans (evolves_settle _))
  · exact (evolves_dropHold s).trans (evolves_enterEnding _ _)

theorem evolves_syncInPhrase (s : State) (o : Onset) (p : Point) : Evolves s (syncInPhrase s o p) :=
  (evolves_dropHold s).trans ((evolves_withPlay _ _).trans ((evolves_formStop _).trans ((evolves_hardSync _ _ _ _).trans
    (evolves_settle _))))

theorem evolves_syncIntoNext (s : State) (o : Onset) (i : EntryNo) (p : Point) : Evolves s (syncIntoNext s o i p) :=
  (evolves_dropHold s).trans ((evolves_makeCurrent _ i).trans ((evolves_applyEntryTempo _ i).trans ((evolves_beginAt _ _ _).trans
    ((evolves_postPhrase _ _ _).trans ((evolves_withPlay _ _).trans ((evolves_hardSync _ _ _ _).trans
      ((evolves_waitingSwitches _).trans (evolves_settle _))))))))

theorem evolves_syncHold (s : State) (o : Onset) : Evolves s (syncHold s o) := by
  have freed : Evolves s (finishPlay (releaseHold s)) := (evolves_releaseHold s).trans (evolves_finishPlay _)
  unfold syncHold
  simp only
  split
  · exact evolves_syncInPhrase s o _
  · split
    · refine .ite (fun _ => ?_) fun _ => .withFollower
      split
      · exact evolves_syncIntoNext s o _ _
      · exact freed
    · exact freed

theorem evolves_takeOnset (s : State) (o : Onset) : Evolves s (takeOnset s o) := by
  unfold takeOnset
  split
  · exact .refl s
  · exact .refl s
  · exact .ite (fun _ => evolves_syncWait s o) fun _ => evolves_matchOnset s o
  · exact .ite (fun _ => evolves_syncHold s o) fun _ => evolves_matchOnset s o
  · exact evolves_matchOnset s o
  · exact evolves_matchOnset s o

theorem evolves_deliverOnset (s : State) (o : Onset) : Evolves s (deliverOnset s o) :=
  .ite (fun _ => evolves_takeOnset s o) fun _ => .refl s

theorem evolves_deliverCutoff (s : State) (c : Cutoff) : Evolves s (deliverCutoff s c) :=
  .ite (fun _ => evolves_releaseHold s) fun _ => .refl s

/-! ### Level frames -/

theorem evolves_closeGather (s : State) : Evolves s (closeGather s) := by
  unfold closeGather
  split
  · exact .ite (fun _ => Evolves.trans (.withDetector (by rfl)) (evolves_deliverOnset _ _)) fun _ => .refl s
  · exact .refl s

theorem evolves_updateCutoff (s : State) : Evolves s (updateCutoff s) := by
  refine .ite (fun _ => evolves_withCutoff s _) fun _ => ?_
  split
  · exact .refl s
  · exact evolves_withCutoff s _
  · exact .ite (fun _ => (evolves_withCutoff s _).trans (evolves_deliverCutoff _ _)) fun _ => .refl s

theorem evolves_handleFrame (s : State) : Evolves s (handleFrame s) :=
  (evolves_closeGather s).trans ((evolves_mapChannels _ _).trans ((evolves_testFiring _).trans (evolves_updateCutoff _)))

theorem evolves_takeLevels (s : State) (q : Byte) (levels : List Nat) : Evolves s (takeLevels s q levels) := by
  refine .ite (fun _ => ?_) fun _ => (evolves_freshen s q levels).trans (evolves_handleFrame _)
  split
  · exact .ite (fun _ => .refl s) fun _ => (evolves_enterFrame s _ _ _).trans (evolves_handleFrame _)
  · exact (evolves_enterFrame s _ _ _).trans (evolves_handleFrame _)

/-! ### Held work, stops and modes -/

theorem evolves_checkWait (s : State) : Evolves s (checkWait s) := by
  unfold checkWait
  split
  · exact .ite (fun _ => .ite (fun _ => .withFollower) fun _ => (evolves_beginOrgan s _ _ _ _).trans (evolves_settle _))
      fun _ => .refl s
  · exact .refl s

theorem evolves_takeHeld (s : State) : Evolves s (takeHeld s) :=
  .ite (fun _ => Evolves.trans .withFollower (evolves_foldl evolves_takeOnset _ _)) fun _ => .withFollower

theorem evolves_joinLists (s : State) : Evolves s (joinLists s) := by
  refine .ite (fun _ => .refl s) fun _ => Evolves.trans (.ite (fun _ => .refl s) fun _ => ?_)
    ((evolves_takeHeld _).trans (evolves_waitingSwitches _))
  exact (evolves_formLocks s).trans ((evolves_releasePassed _).trans ((evolves_formStop _).trans (evolves_checkWait _)))

theorem evolves_idleFollower (s : State) : Evolves s (idleFollower s) :=
  .withFollower (window := fun _ => windowOrdered_nil rfl) (locks := locksClear_nil rfl rfl)
    (called := fun _ _ _ => rfl)

theorem evolves_stopPlay (s : State) : Evolves s (stopPlay s) :=
  (evolves_stopClock s true).trans ((evolves_idleFollower _).trans ((evolves_purgeAll _).trans ((evolves_discardWalks _).trans
    (evolves_clearRegistration _))))

theorem evolves_stopIfPlaying (s : State) : Evolves s (stopIfPlaying s) :=
  .ite (fun _ => .refl s) fun _ => evolves_stopPlay s

theorem evolves_endPlay (s : State) : Evolves s (endPlay s) :=
  (evolves_stopClock s false).trans ((evolves_idleFollower _).trans ((evolves_discardWalks _).trans (evolves_postAlert _ _)))

theorem evolves_markMerged (s : State) : Evolves s (markMerged s) := by
  have keys : Evolves s (Division.all.foldl
      (fun a d => if (heldKeys (s.sched.holds.get d)).isEmpty then a else markDue a (.keys d)) s) :=
    evolves_foldl (fun a d => .ite (fun _ => .refl a) fun _ => evolves_markDue a _) _ s
  exact .ite (fun _ => keys) fun _ => keys.trans (evolves_markDue _ _)

theorem evolves_enterMode (s : State) (m : Mode) : Evolves s (enterMode s m) := by
  have set : Evolves s (s.withFollower { s.follower with mode := m, pendingMode := none }) := .withFollower
  exact Evolves.trans (.ite (fun _ => set) fun _ => set.trans (evolves_markMerged _)) (evolves_formStop _)

theorem evolves_enterSteady (s : State) : Evolves s (enterSteady s) := by
  have entered : Evolves s (enterMode (s.withFollower { s.follower with window := [], heldOnsets := [] }) .steady) :=
    Evolves.trans (.withFollower (window := fun _ => windowOrdered_nil rfl)) (evolves_enterMode _ _)
  exact .ite (fun _ => entered.trans (evolves_endWait _ _)) fun _ => entered

theorem evolves_enterOff (s : State) : Evolves s (enterOff s) :=
  (evolves_stopIfPlaying s).trans ((evolves_clearRegistration _).trans .withFollower)

theorem evolves_enterOrWait (s : State) (m : Mode) : Evolves s (enterOrWait s m) :=
  .ite (fun _ => evolves_enterMode s m) fun _ => .withFollower

theorem evolves_requestMode (s : State) (m : Mode) : Evolves s (requestMode s m) := by
  refine .ite (fun _ => .withFollower) fun _ => ?_
  split
  · exact evolves_enterOff s
  · exact evolves_enterSteady s
  · exact evolves_enterOrWait s _
  · exact evolves_enterOrWait s _
  · exact evolves_enterMode s _

theorem evolves_applyPendingMode (s : State) : Evolves s (applyPendingMode s) := by
  unfold applyPendingMode
  split
  · exact evolves_enterMode s _
  · exact .refl s

theorem evolves_restartPlay (s : State) : Evolves s (restartPlay s) :=
  (evolves_stopIfPlaying s).trans ((evolves_clearRegistration _).trans ((evolves_stopClock _ _).trans ((evolves_recoverConf _).trans
    ((evolves_announce _ _).trans ((evolves_restartDetector _).trans (evolves_applyPendingMode _))))))

/-! ### The rows of play -/

theorem evolves_releasePlay (s : State) : Evolves s (releasePlay s) := by
  unfold releasePlay
  split
  · exact evolves_releaseHold s
  · exact evolves_endWait s _
  · exact .refl s

theorem evolves_reachStop (s : State) : Evolves s (reachStop s) := by
  unfold reachStop
  split
  · exact (evolves_holdClock s _).trans (evolves_settle _)
  · exact .refl s

theorem evolves_passPhraseEnd (s : State) : Evolves s (passPhraseEnd s) := by
  unfold passPhraseEnd
  split
  · exact (evolves_enterEntry s _ _).trans (evolves_settle _)
  · exact .refl s

theorem evolves_engageNext (s : State) : Evolves s (engageNext s) := by
  unfold engageNext
  split
  · rename_i e _
    have locked := evolves_relocked (s := s.withSched { s.sched with walkNext := some 0 })
      (f := { s.follower with next := some e, pointsNext := some 0 }) rfl
    exact Evolves.trans .withSched (locked.trans ((evolves_formStop _).trans (evolves_waitingSwitches _)))
  · exact .refl s

theorem evolves_openDue (s : State) : Evolves s (openDue s) := by
  unfold openDue
  split
  · exact evolves_openPoint s _
  · exact .refl s

theorem evolves_closeDue (s : State) : Evolves s (closeDue s) := by
  unfold closeDue
  split
  · exact (evolves_erasePoint s _).trans ((evolves_confRise _ _).trans (evolves_announce _ _))
  · exact .refl s

theorem evolves_expireLeadIn (s : State) : Evolves s (expireLeadIn s) :=
  .ite (fun _ => (evolves_endWait s _).trans ((evolves_confRise _ _).trans ((evolves_announce _ _).trans (evolves_settle _))))
    fun _ => evolves_endWait s _

/-- Every change of play moves it within its invariants. -/
theorem PlayStep.evolves {s t : State} (h : PlayStep s t) : Evolves s t := by
  cases h with
  | mode m => exact evolves_requestMode s m
  | start request _ _ hlist => exact evolves_startPlay request hlist
  | finish => exact evolves_finishPlay s
  | halt => exact evolves_stopIfPlaying s
  | release => exact evolves_releasePlay s
  | tempoNow p => exact (evolves_dropPending s).trans (evolves_applyPeriod _ p)
  | tempoNext p =>
    refine .withClock fun h => ?_
    obtain ⟨hlo, -⟩ := periodFits_clamp s p h
    obtain ⟨-, hhi⟩ := periodFits_clamp s p h
    obtain ⟨h1, h2, h3, h4, -⟩ := h
    exact ⟨h1, h2, h3, h4, fun q hq => by cases hq; exact ⟨h1.trans hlo, hhi.trans h4⟩⟩
  | registration k => exact evolves_setActive s k
  | rate n => exact evolves_withClock (c := { s.clock with rate := n }) (periodFits_same s) (.inl rfl)
  | restart => exact evolves_restartPlay s
  | levels q levels => exact evolves_takeLevels s q levels
  | stale => exact evolves_becomeStale s
  | boost => exact evolves_endBoost s
  | boundary => exact (evolves_crossBoundary s).trans (evolves_settle _)
  | renewal => exact evolves_renewAnchor s
  | stop => exact evolves_reachStop s
  | gapOrigin => exact evolves_withPlay s _
  | phraseEnd => exact evolves_passPhraseEnd s
  | engage => exact evolves_engageNext s
  | pointOpen => exact evolves_openDue s
  | pointClose => exact evolves_closeDue s
  | leadIn => exact evolves_expireLeadIn s
  | holdTimer => exact evolves_releaseHold s
  | ending => exact evolves_endPlay s
  | pendingMode => exact evolves_applyPendingMode s
  | place w => exact evolves_placeFromWalk s w
  | catchUp d => exact evolves_placeFromCatchUp s d
  | press d => exact evolves_pressNow s d
  | releaseIssue d => exact evolves_releaseNow s d
  | keyUp d k => exact evolves_forgetKeyUp s d k

end Machine

end Sys2Proof
end

section
/-! PROOF. Every step keeps the queues of the lines (O54), the issue queues (O55), overrides and stops (O56). -/

namespace Sys2Proof

namespace Machine

set_option Elab.async false

/-! ### The queues of the lines (O54) -/

/-- A predicate of the lines and the handler that play keeps, and the filling of the reply slot. -/
structure LineInvariant (P : State → Prop) : Prop where
  grows : ∀ {s t}, RelayGrows s.relay t.relay → HandlerGrows s.handler t.handler → P s → P t
  placed : ∀ {s t : State}, t.relay = { s.relay with slot := t.relay.slot } →
    t.handler = { s.handler with buffer := t.handler.buffer, waiting := t.handler.waiting } →
    t.handler.buffer.length ≤ s.handler.buffer.length → P s → P t

namespace LineInvariant

variable {P : State → Prop} (inv : LineInvariant P)
include inv

theorem evolves {s t : State} (h : Evolves s t) (hs : P s) : P t := inv.grows h.relay h.handler hs

theorem same {s t : State} (hr : t.relay = s.relay) (hh : t.handler = s.handler) (hs : P s) : P t :=
  inv.placed (by rw [hr]) (by rw [hh]) (by rw [hh]) hs

theorem tableRows : TableRows P :=
  .of_free (fun _ _ => inv.same rfl rfl) (fun s => inv.evolves (evolves_reformStops s)) (fun s => inv.evolves (evolves_formStop s))
    fun s p => inv.evolves (evolves_applyPeriod s p)

theorem listRows : ListRows P :=
  .of_free (fun _ _ _ => inv.same rfl rfl) (fun _ _ => inv.placed rfl rfl le_rfl) fun s => inv.evolves (evolves_joinLists s)

theorem faultRows : FaultRows P :=
  .of_free (fun _ _ => inv.same rfl rfl) (fun s => inv.evolves (evolves_reformStops s)) (fun s d => inv.evolves (evolves_purge s d))
    (fun s => inv.evolves (evolves_stopIfPlaying s)) (fun s => inv.evolves (evolves_clearRegistration s))
    (fun s a => inv.evolves (evolves_postAlert s a)) (fun s => inv.evolves (evolves_waitingSwitches s))
    fun s d => inv.evolves (evolves_resumeDivision s d)

/-- With the relay rows and the resets the predicate is an invariant. -/
theorem stepInvariant (relay : RelayRows P) (resets : ResetRows P) : StepInvariant P where
  toTableRows := inv.tableRows
  toListRows := inv.listRows
  toFaultRows := inv.faultRows
  toRelayRows := relay
  toResetRows := resets
  quiet h := by
    obtain ⟨he, hlen⟩ := h
    exact inv.placed (by rw [he]) (by rw [he]) hlen
  play h := inv.evolves h.evolves

end LineInvariant

theorem queuesFit_line : LineInvariant QueuesFit where
  grows {s t} hr hh h := by
    obtain ⟨hb, ha, hf, hp, hm⟩ := h
    obtain ⟨hm', hp'⟩ := hr.fits hm
    exact ⟨by rw [hh.same]; exact hb, hh.fits ha, by rw [hr.same]; exact hf, hp'.trans_le hp, hm'⟩
  placed {s t} hr hh hlen h := by
    obtain ⟨hb, ha, hf, hp, hm⟩ := h
    exact ⟨hlen.trans hb, by rw [hh]; exact ha, by rw [hr]; exact hf, by rw [hr]; exact hp, by rw [hr]; exact hm⟩

theorem queuesFit_markDue {s : State} (h : QueuesFit s) (m : Marker) : QueuesFit (markDue s m) :=
  queuesFit_line.evolves (evolves_markDue s m) h

theorem queuesFit_relayRows : RelayRows QueuesFit where
  resetTaken _ h := h
  forwardUp s bytes h := by
    obtain ⟨hb, ha, hf, hp, hm⟩ := id h
    unfold forwardUp
    split
    · rename_i hroom
      exact ⟨hb, ha, by simpa [Config.forwardMax] using hroom, hp, hm⟩
    · exact h
  takeKeys s d image h := by unfold takeKeys; exact queuesFit_markDue (by exact h) _
  takeStops s image h := by unfold takeStops; exact queuesFit_markDue (by exact h) _
  bufferRequest s payload h := by
    obtain ⟨hb, ha, hf, hp, hm⟩ := id h
    unfold bufferRequest
    split
    · rename_i hroom
      exact ⟨by simpa [Config.bufferMax] using hroom, ha, hf, hp, hm⟩
    · exact h
  passThrough s bytes h := by
    obtain ⟨hb, ha, hf, hp, hm⟩ := id h
    unfold passThrough
    split
    · rename_i hroom
      refine ⟨hb, ha, hf, ?_, by simpa [markersOf] using hm⟩
      simpa [passCount, Config.passMax] using hroom
    · exact h
  takeDown s h := by
    obtain ⟨hb, ha, hf, hp, hm⟩ := id h
    unfold takeDown
    split
    · rename_i item rest _ _ hq
      rw [hq] at hp hm
      refine ⟨hb, ha, hf, le_trans ?_ hp, hm.sublist ?_⟩
      · exact (List.Sublist.filter _ (List.sublist_cons_self item rest)).length_le
      · exact List.Sublist.filterMap _ (List.sublist_cons_self item rest)
    · exact h
  downSent _ h := h
  takeForward s f rest _ hq h := by
    obtain ⟨hb, ha, hf, hp, hm⟩ := h
    rw [hq] at hf
    exact ⟨hb, ha, (Nat.le_succ _).trans hf, hp, hm⟩
  replySent _ _ _ h := h
  lostShown _ h := h
  takeAlert s a rest _ hq h := by
    obtain ⟨hb, ha, hf, hp, hm⟩ := h
    rw [hq] at ha
    exact ⟨hb, (Nat.le_succ _).trans ha, hf, hp, hm⟩
  upSent _ h := h
  bypassRelease _ _ h := h
  downReceiveStart _ _ _ h := h
  pins _ _ h := h

theorem queuesFit_resetRows : ResetRows QueuesFit where
  beginReset s c _ := queuesFit_of_reset (node := s.relay.node) (r := true) rfl (c := c) rfl
  endReset _ _ _ _ h := h

/-- While the lines are open the transmit lanes may be taken. -/
theorem linesShut_of_open {s t : State} (ho : linesOpen s = true) (hr : t.relay.resetting = s.relay.resetting)
    (hb : t.relay.bypass = s.relay.bypass) : LinesShut t := by
  simp only [linesOpen, Bool.and_eq_true, Bool.not_eq_true'] at ho
  rw [← hr, ← hb] at ho
  exact ⟨fun h => by simp [ho.1] at h, fun h => by simp [ho.2] at h⟩

theorem LinesShut.of_same {s t : State} (h1 : t.relay.resetting = s.relay.resetting) (h2 : t.relay.bypass = s.relay.bypass)
    (h3 : t.relay.downReceiving = s.relay.downReceiving) (h4 : t.relay.downLane = s.relay.downLane)
    (h5 : t.relay.upLane = s.relay.upLane) (h : LinesShut s) : LinesShut t := by
  unfold LinesShut; rw [h1, h2, h3, h4, h5]; exact h

theorem linesShut_line : LineInvariant LinesShut where
  grows hr _ := .of_same (by rw [hr.same]) (by rw [hr.same]) (by rw [hr.same]) (by rw [hr.same]) (by rw [hr.same])
  placed hr _ _ := .of_same (by rw [hr]) (by rw [hr]) (by rw [hr]) (by rw [hr]) (by rw [hr])

theorem linesShut_relayRows : RelayRows LinesShut where
  resetTaken _ h := h
  forwardUp s bytes h := by unfold forwardUp; split <;> exact h
  takeKeys s d image h := linesShut_line.evolves (evolves_markDue _ _) (show LinesShut (s.withRelay _) from h)
  takeStops s image h := linesShut_line.evolves (evolves_markDue _ _) (show LinesShut (s.withRelay _) from h)
  bufferRequest s payload h := by unfold bufferRequest; split <;> exact h
  passThrough s bytes h := by unfold passThrough; split <;> exact h
  takeDown s h := by
    unfold takeDown
    split
    · exact linesShut_of_open (s := s) (by assumption) rfl rfl
    · exact h
  downSent _ h := ⟨h.1, fun hb => ⟨(h.2 hb).1, rfl, (h.2 hb).2.2⟩⟩
  takeForward s _ _ ho _ _ := linesShut_of_open ho rfl rfl
  replySent s _ ho _ := linesShut_of_open ho rfl rfl
  lostShown _ h := h
  takeAlert s _ _ ho _ _ := linesShut_of_open ho rfl rfl
  upSent _ h := ⟨h.1, fun hb => ⟨(h.2 hb).1, (h.2 hb).2.1, rfl⟩⟩
  bypassRelease s hr _ := ⟨fun h => by simp [hr] at h, nofun⟩
  downReceiveStart s hr hb _ := ⟨fun h => by simp [hr] at h, fun h => by simp [hb] at h⟩
  pins _ _ h := h

theorem linesShut_resetRows : ResetRows LinesShut where
  beginReset s _ _ := linesShut_of_reset (node := s.relay.node) (r := true) rfl
  endReset _ _ _ _ h := ⟨nofun, h.2⟩

/-- Settles O54: the sizes and the shut lines are two invariants, each kept by every kind of change. -/
theorem everyStepKeepsQueuesFit : Obligations.EveryStepKeepsQueuesFit := by
  unfold Obligations.EveryStepKeepsQueuesFit
  intro s t ht
  exact ⟨fun h => (queuesFit_line.stepInvariant queuesFit_relayRows queuesFit_resetRows).keeps h ht,
    fun h => (linesShut_line.stepInvariant linesShut_relayRows linesShut_resetRows).keeps h ht⟩

/-! ### The issue queues and hold counts (O55) -/

/-- A predicate of the scheduler that play keeps, and a full reset meets, is an invariant. -/
theorem StepInvariant.of_sched {P : State → Prop} (evolves : ∀ {s t}, Evolves s t → P s → P t)
    (same : ∀ {s t : State}, t.sched = s.sched → P s → P t) (reset : ∀ s : State, s.sched = Sched.reset → P s) :
    StepInvariant P where
  toTableRows := .of_free (fun _ _ => same rfl) (fun s => evolves (evolves_reformStops s)) (fun s => evolves (evolves_formStop s))
    fun s p => evolves (evolves_applyPeriod s p)
  toListRows := .of_free (fun _ _ _ => same rfl) (fun _ _ => same rfl) fun s => evolves (evolves_joinLists s)
  toFaultRows := .of_free (fun _ _ => same rfl) (fun s => evolves (evolves_reformStops s)) (fun s d => evolves (evolves_purge s d))
    (fun s => evolves (evolves_stopIfPlaying s)) (fun s => evolves (evolves_clearRegistration s))
    (fun s a => evolves (evolves_postAlert s a)) (fun s => evolves (evolves_waitingSwitches s))
    fun s d => evolves (evolves_resumeDivision s d)
  toRelayRows := .of_free fun _ _ ht => same (by rw [ht])
  beginReset s c _ := reset _ rfl
  endReset s _ _ _ := same rfl
  quiet h := same (by rw [h.1])
  play h := evolves h.evolves

theorem issueQueues_stepInvariant : StepInvariant fun s => IssueQueuesOrdered s ∧ HoldsBounded s :=
  .of_sched (fun he ⟨hq, hh⟩ => ⟨he.queues hq, he.holds hh⟩)
    (fun he h => by unfold IssueQueuesOrdered HoldsBounded queue at *; rw [he]; exact h)
    fun _ h => ⟨issueQueuesOrdered_of_reset h, holdsBounded_of_reset h⟩

/-- Settles O55: placing needs two free places and keeps the order, all else takes actions away, and no count passes 15. -/
theorem everyStepKeepsIssueQueuesOrdered : Obligations.EveryStepKeepsIssueQueuesOrdered := by
  unfold Obligations.EveryStepKeepsIssueQueuesOrdered
  exact fun s t h ht => issueQueues_stepInvariant.keeps h ht

end Machine

end Sys2Proof
end

section
/-! PROOF. Every step keeps overridden divisions silent and the withdrawn stops out of the playback stop image (O56). -/

namespace Sys2Proof

namespace Machine

set_option Elab.async false

/-- Division `d` has no action queued and no key held by playback. -/
def DivisionSilent (s : State) (d : Division) : Prop := queue s d = [] ∧ ∀ k, vget (s.sched.holds.get d) k = 0

theorem divisionSilent_purge (s : State) (d : Division) : DivisionSilent (purge s d) d := by
  obtain ⟨hq, -, -, hh, -⟩ := purged_purge s d
  exact ⟨hq, hh⟩

theorem DivisionSilent.purge {s : State} {e : Division} (h : DivisionSilent s e) (d : Division) : DivisionSilent (purge s d) e := by
  by_cases he : e = d
  · rw [he]; exact divisionSilent_purge s d
  · obtain ⟨hq, hh, -⟩ := purge_other s he
    exact ⟨hq.trans h.1, fun k => by rw [hh]; exact h.2 k⟩

/-- Fewer overrides over the same queues and counts. -/
theorem OverrideSilent.of_fewer {s t : State} (hs : t.sched = s.sched) (ho : ∀ d, overridden t d = true → overridden s d = true)
    (h : OverrideSilent s) : OverrideSilent t := fun d hd => by
  unfold queue; rw [hs]; exact h d (ho d hd)

/-- The image formed depends on the withdrawals, the stop table and the active set. -/
theorem formedImage_of_same {s t : State} (he : t.prot.escalated = s.prot.escalated) (hl : ∀ d, latched t d = latched s d)
    (hs : t.tables.stops = s.tables.stops) (ha : activeSet t = activeSet s) : formedImage t = formedImage s := by
  have hw : ∀ n, withdrawn t n = withdrawn s n := fun n => by simp [withdrawn, stopEntry?, he, hs, hl]
  simp [formedImage, lessWithdrawn, ha, hw]

theorem StopsFormed.of_same {s t : State} (hi : t.sched.stopImage = s.sched.stopImage)
    (he : t.prot.escalated = s.prot.escalated) (hl : ∀ d, latched t d = latched s d) (hs : t.tables.stops = s.tables.stops)
    (ha : activeSet t = activeSet s) (h : StopsFormed s) : StopsFormed t := by
  unfold StopsFormed
  rw [hi, formedImage_of_same he hl hs ha]
  exact h

/-- Overridden divisions are silent, and the stop image is as it is to be formed. -/
def SilentAndFormed (s : State) : Prop := OverrideSilent s ∧ StopsFormed s

theorem SilentAndFormed.evolves {s t : State} (h : Evolves s t) (hs : SilentAndFormed s) : SilentAndFormed t :=
  ⟨h.silent hs.1, h.stops hs.2⟩

/-- After a re-forming, silence alone is asked of what was there before. -/
theorem SilentAndFormed.reform {s : State} (h : OverrideSilent s) : SilentAndFormed (reformStops s) :=
  ⟨(evolves_reformStops s).silent h, stopsFormed_reformStops s⟩

theorem SilentAndFormed.same {s t : State} (hs : t.sched = s.sched) (hp : t.prot = s.prot) (ht : t.tables = s.tables)
    (h : SilentAndFormed s) : SilentAndFormed t :=
  ⟨h.1.of_fewer hs fun d hd => by unfold overridden latched at *; rwa [hp] at hd,
    h.2.of_same (by rw [hs]) (by rw [hp]) (fun d => by simp [latched, hp]) (by rw [ht]) (by simp [activeSet, hs, ht])⟩

/-- Tables change but for the stops and the active set. -/
theorem SilentAndFormed.withTables {s : State} {a : Tables} (hs : a.stops = s.tables.stops)
    (ha : ∀ k, s.sched.active = some k → vget a.sets k = vget s.tables.sets k) (h : SilentAndFormed s) :
    SilentAndFormed (s.withTables a) := by
  refine ⟨h.1, StopsFormed.of_same (s := s) rfl rfl (fun _ => rfl) hs ?_ h.2⟩
  unfold activeSet
  simp only [State.withTables_sched, State.withTables_tables]
  cases hk : s.sched.active with
  | none => rfl
  | some k => exact ha k hk

theorem silentAndFormed_tableRows : TableRows SilentAndFormed where
  putStop s _ args h := by
    unfold putStop
    split
    · exact .reform h.1
    · exact h
  putDelay s _ args h := by
    unfold putDelay
    split
    · exact h.withTables rfl fun _ _ => rfl
    · exact h
  putSet s _ args h := by
    unfold putSet
    simp only
    split
    · change SilentAndFormed (if _ then _ else _)
      split
      · exact .reform h.1
      · rename_i k _ _ hk
        refine h.withTables rfl fun j hj => ?_
        rw [vget_vset, if_neg fun he : j = k => hk (he ▸ hj)]
    · exact h
  putPlan s _ args h := by
    unfold putPlan
    split
    · split
      · exact h
      · exact .evolves (evolves_formStop _) (h.withTables rfl fun _ _ => rfl)
    · exact h
  putSize s _ args h := by
    unfold putSize
    simp only
    split_ifs
    · exact h
    · exact h
    · exact .evolves (evolves_formStop _) (h.withTables rfl fun _ _ => rfl)
  putFollow s _ args h := by
    unfold putFollow
    split
    · change SilentAndFormed (if _ then _ else _)
      split
      · exact .evolves (evolves_applyPeriod _ _) (h.withTables rfl fun _ _ => rfl)
      · exact h.withTables rfl fun _ _ => rfl
    · exact h
  putPickup s _ args h := h.withTables rfl fun _ _ => rfl
  putSound s _ args h := h.withTables rfl fun _ _ => rfl

theorem overridden_withFault (s : State) (d : Division) (r : Option FaultRec) (e : Division) :
    overridden (withFault s d r) e = if e = d then r.isSome || s.prot.windLow else overridden s e := by
  by_cases h : e = d <;> simp [overridden, latched, withFault, PerDiv.get_set, h]

/-- The division a report latches falls silent, and its stops leave the image. -/
theorem silentAndFormed_withdraw {s : State} (h : OverrideSilent s) (d : Division) (r : FaultRec) :
    SilentAndFormed (withdrawDivision (withFault s d (some r)) d (overridden s d)) := by
  refine .reform ?_
  split
  · rename_i ho
    refine OverrideSilent.of_fewer (s := s) rfl (fun e he => ?_) h
    rw [overridden_withFault] at he
    split at he
    · subst e; exact ho
    · exact he
  · intro e he
    by_cases hed : e = d
    · rw [hed]; exact divisionSilent_purge _ d
    · refine DivisionSilent.purge (s := withFault s d (some r)) (h e ?_) d
      have hp : overridden (purge (withFault s d (some r)) d) e = overridden (withFault s d (some r)) e := by
        simp [overridden, latched]
      rw [hp, overridden_withFault, if_neg hed] at he
      exact he

theorem silentAndFormed_escalate {s : State} (h : SilentAndFormed s) : SilentAndFormed (escalate s) := by
  have flagged : OverrideSilent (s.withProt { s.prot with escalated := true }) := h.1
  have stopped := (evolves_stopIfPlaying (s.withProt { s.prot with escalated := true })).silent flagged
  exact ⟨(evolves_clearRegistration _).silent stopped, stopsFormed_setActive _ _⟩

theorem evolves_postFault (s : State) (c : FaultCause) (d : Option Division) (k : Option Key) :
    Evolves s (postFault s c d k) := evolves_postAlert s _

theorem evolves_resumeFreed (ds : List Division) (b s : State) : Evolves s (resumeFreed ds b s) :=
  evolves_foldl (fun a d => .ite (fun _ => evolves_resumeDivision a d) fun _ => .refl a) ds s

theorem silentAndFormed_latch {s : State} (h : SilentAndFormed s) (d : Division) (r : FaultRec) :
    SilentAndFormed (latchFault s d r) := by
  have withdrawn := silentAndFormed_withdraw h.1 d r
  refine .evolves ((evolves_postFault _ _ _ _).trans (evolves_waitingSwitches _)) ?_
  split
  · exact silentAndFormed_escalate withdrawn
  · exact withdrawn

/-- Purging divisions in turn keeps the silent silent and silences each. -/
theorem divisionSilent_purges {s : State} (skip : Division → Bool) (ds : List Division) {d : Division}
    (h : DivisionSilent s d ∨ d ∈ ds ∧ skip d = false) :
    DivisionSilent (ds.foldl (fun a e => if skip e then a else purge a e) s) d := by
  induction ds generalizing s with
  | nil => exact h.resolve_right (fun hd => by cases hd.1)
  | cons e ds ih =>
    refine ih ?_
    rcases h with h | ⟨hmem, hskip⟩
    · left
      simp only
      split
      · exact h
      · exact h.purge e
    · rcases List.mem_cons.mp hmem with rfl | hmem
      · left
        simp only [hskip]
        exact divisionSilent_purge s d
      · exact .inr ⟨hmem, hskip⟩

theorem mem_divisionAll (d : Division) : d ∈ Division.all := by cases d <;> decide

theorem silentAndFormed_windLow {s : State} (h : SilentAndFormed s) : SilentAndFormed (windLow s) := by
  unfold windLow
  split
  · exact h
  · refine .evolves ((evolves_postFault _ _ _ _).trans (evolves_waitingSwitches _)) ⟨fun d _ => ?_, ?_⟩
    · refine divisionSilent_purges (s := s.withProt { s.prot with windLow := true }) (overridden s) Division.all ?_
      cases ho : overridden s d with
      | true => exact .inl (h.1 d ho)
      | false => exact .inr ⟨mem_divisionAll d, rfl⟩
    · exact (evolves_foldl (fun a d => .ite (fun _ => .refl a) fun _ => evolves_purge a d) Division.all _).stops
        (StopsFormed.of_same (s := s) rfl rfl (fun _ => rfl) rfl rfl h.2)

theorem overridden_cleared (s : State) (ds : List Division) (d : Division) :
    overridden (ds.foldl (fun a e => withFault a e none) s) d = true → overridden s d = true := by
  induction ds generalizing s with
  | nil => exact id
  | cons e ds ih =>
    refine fun h => ?_
    have := ih (withFault s e none) h
    rw [overridden_withFault] at this
    split at this
    · simp only [Option.isSome_none, Bool.false_or] at this
      simp [overridden, this]
    · exact this

theorem silentAndFormed_faultRows : FaultRows SilentAndFormed where
  clearFaults s ds named h := by
    have cleared : OverrideSilent (ds.foldl (fun a e => withFault a e none) s) :=
      h.1.of_fewer (by simp) (overridden_cleared s ds)
    unfold clearFaults
    split
    · refine .evolves ((evolves_resumeFreed _ _ _).trans (evolves_postFault _ _ _ _)) (.reform ?_)
      split
      · exact cleared
      · exact cleared
    · exact h
  reportFault s d r h := by
    unfold reportFault
    split
    · exact silentAndFormed_latch h d r
    · rename_i old hold
      have latches : ∀ e, latched (withFault s d (some r)) e = latched s e := fun e => by
        by_cases hed : e = d <;> simp [latched, withFault, PerDiv.get_set, hed, hold]
      split
      · exact h
      · refine .evolves (evolves_postFault _ _ _ _) ⟨OverrideSilent.of_fewer (s := s) rfl (fun e he => ?_) h.1,
          StopsFormed.of_same (s := s) rfl rfl latches rfl rfl h.2⟩
        unfold overridden at he ⊢
        rwa [latches] at he
  windLow s h := silentAndFormed_windLow h
  windOk s h := by
    unfold windOk
    split
    · refine .evolves ((evolves_resumeFreed _ _ _).trans (evolves_postFault _ _ _ _))
        ⟨OverrideSilent.of_fewer (s := s) rfl (fun d hd => ?_) h.1, StopsFormed.of_same (s := s) rfl rfl (fun _ => rfl) rfl rfl h.2⟩
      rename_i hw
      simp [overridden, hw]
    · exact h

theorem silentAndFormed_stepInvariant : StepInvariant SilentAndFormed where
  toTableRows := silentAndFormed_tableRows
  toListRows := .of_free (fun _ _ _ => .same rfl rfl rfl) (fun _ _ => .same rfl rfl rfl) fun s => .evolves (evolves_joinLists s)
  toFaultRows := silentAndFormed_faultRows
  toRelayRows := .of_free fun _ _ ht => .same (by rw [ht]) (by rw [ht]) (by rw [ht])
  beginReset s c _ := ⟨overrideSilent_of_reset rfl, stopsFormed_of_reset rfl⟩
  endReset s straps four _ h := by
    refine ⟨h.1, StopsFormed.of_same (s := s) rfl rfl (fun _ => rfl) rfl rfl h.2⟩
  quiet h := .same (by rw [h.1]) (by rw [h.1]) (by rw [h.1])
  play h := .evolves h.evolves

/-- Settles O56: play never fills an overridden queue, a division is purged as it comes under override, and every change of the
withdrawals, the stop table or the active set forms the image afresh. -/
theorem everyStepKeepsOverridesSilent : Obligations.EveryStepKeepsOverridesSilent := by
  unfold Obligations.EveryStepKeepsOverridesSilent
  exact fun s t h ht => silentAndFormed_stepInvariant.keeps h ht

end Machine

end Sys2Proof
end

section
/-! PROOF. Every step keeps the tables, the phrase lengths and the period within their ranges (O58). -/

namespace Sys2Proof

namespace Machine

set_option Elab.async false

/-- Tables, period and lengths lie in their ranges. -/
def AllInRange (s : State) : Prop := TablesInRange s ∧ PeriodInRange s ∧ LengthsInRange s

theorem TablesInRange.of_same {s t : State} (ht : t.tables = s.tables) (hd : t.detector.fourChannels = s.detector.fourChannels)
    (h : TablesInRange s) : TablesInRange t := by
  unfold TablesInRange planEntry available; rw [ht, hd]; exact h

theorem PeriodInRange.of_same {s t : State} (ht : t.tables.follow = s.tables.follow) (hp : t.clock.period = s.clock.period)
    (hn : t.clock.pendingTempo = s.clock.pendingTempo) (h : PeriodInRange s) : PeriodInRange t := by
  unfold PeriodInRange; rw [ht, hp, hn]; exact h

theorem LengthsInRange.of_same {s t : State} (hs : t.store.lengths = s.store.lengths) (hw : t.ctl.work = s.ctl.work)
    (h : LengthsInRange s) : LengthsInRange t := by
  unfold LengthsInRange phraseLength; rw [hs, hw]; exact h

theorem AllInRange.evolves {s t : State} (he : Evolves s t) (h : AllInRange s) : AllInRange t :=
  ⟨h.1.of_same he.tables he.channels, he.period h.2.1, h.2.2.of_same he.score.lengths (by rw [he.ctl])⟩

theorem AllInRange.same {s t : State} (h : AllInRange s) (ht : t.tables = s.tables) (hd : t.detector = s.detector) (hc : t.clock = s.clock)
    (hs : t.store = s.store) (hw : t.ctl.work = s.ctl.work) : AllInRange t :=
  ⟨h.1.of_same ht (by rw [hd]), h.2.1.of_same (by rw [ht]) (by rw [hc]) (by rw [hc]), h.2.2.of_same (by rw [hs]) hw⟩

/-! ### The tables -/

theorem channelsIn_pos {b : BitVec 4} (h : b ≠ 0) : 1 ≤ channelsIn b := by
  revert b; decide

/-- An entry that PLAN-PUT accepts lies in the ranges of the table. -/
theorem entryInRange_of_planEntry? {avail : BitVec 4} {args : List Byte} {e : PlanEntry} (h : planEntry? avail args = some e) :
    EntryInRange avail e := by
  unfold planEntry? at h
  simp only at h
  split at h
  · rename_i l _ _ hl _ _
    have hne : l ≠ 0 := by simpa using (Option.filter_eq_some_iff.mp hl).2
    split_ifs at h with hv hr
    obtain rfl := Option.some.inj h
    obtain ⟨hlo, hhi, hmask⟩ : _ ∧ _ ∧ _ := by simpa only [not_or, not_lt] using hr
    refine ⟨hne, min_le_right _ _, clampNat_range (by decide) _, clampNat_range (by decide) _, ⟨hlo, hhi⟩, hmask,
      clampNat_range (channelsIn_pos hmask) _, fun p hp => ?_⟩
    obtain ⟨q, -, rfl⟩ := Option.map_eq_some_iff.mp hp
    exact clampNat_range (by decide) q
  · cases h

/-- A follow profile that FOLLOW-PUT accepts, its window, gains and limits in their ranges and Pmin not above Pmax. -/
theorem followInRange_of_followProfile? {args : List Byte} {p : FollowProfile} (h : followProfile? args = some p) :
    FollowInRange p ∧ 30000 ≤ p.pmin ∧ p.pmin ≤ p.pmax ∧ p.pmax ≤ 200000 := by
  unfold followProfile? at h
  split at h
  · simp only at h
    split_ifs at h with hle
    obtain rfl := Option.some.inj h
    have range : ∀ {lo hi : Nat}, lo ≤ hi → ∀ x, lo ≤ clampNat lo hi x ∧ clampNat lo hi x ≤ hi := clampNat_range
    exact ⟨⟨range (by decide) _, (range (by decide) _).2, range (by decide) _, (range (by decide) _).2, range (by decide) _,
      range (by decide) _⟩, (range (by decide) _).1, Nat.not_lt.mp hle, (range (by decide) _).2⟩
  · cases h

theorem pickupInRange_pickupProfile (args : List Byte) : PickupInRange (pickupProfile args) := by
  have range : ∀ {lo hi : Nat}, lo ≤ hi → ∀ x, lo ≤ clampNat lo hi x ∧ clampNat lo hi x ≤ hi := clampNat_range
  exact ⟨range (by decide) _, range (by decide) _, (range (by decide) _).2, range (by decide) _, (range (by decide) _).2,
    (range (by decide) _).2, range (by decide) _, (range (by decide) _).2⟩

/-! ### The period -/

/-- A period of the range may be installed even when the present one lies outside. -/
theorem periodInRange_installAnchor {s : State} {p : Nat} (hmin : 30000 ≤ s.tables.follow.pmin)
    (hp : s.tables.follow.pmin ≤ p ∧ p ≤ s.tables.follow.pmax) (hmax : s.tables.follow.pmax ≤ 200000)
    (hn : ∀ q, s.clock.pendingTempo = some q → 30000 ≤ q ∧ q ≤ 200000) (ta : PartTime) (xa : Pos) :
    PeriodInRange (installAnchor s ta xa p) := by
  have range : ∀ c : Clock, c.period = p → c.pendingTempo = s.clock.pendingTempo → PeriodInRange (s.withClock c) :=
    fun c h1 h2 => ⟨hmin, by simpa [h1] using hp.1, by simpa [h1] using hp.2, hmax, by simpa [h2] using hn⟩
  unfold installAnchor
  split
  · simp only
    split <;> exact range _ rfl rfl
  · exact range _ rfl rfl

theorem periodInRange_applyPeriod {s : State} (hmin : 30000 ≤ s.tables.follow.pmin)
    (hle : s.tables.follow.pmin ≤ s.tables.follow.pmax) (hmax : s.tables.follow.pmax ≤ 200000)
    (hn : ∀ q, s.clock.pendingTempo = some q → 30000 ≤ q ∧ q ≤ 200000) (p : Nat) : PeriodInRange (applyPeriod s p) := by
  refine (evolves_settle _).period ?_
  have hp := clampNat_range hle p
  unfold changePeriod
  split
  · exact ⟨hmin, hp.1, hp.2, hmax, hn⟩
  · exact (evolves_riseTo _ _ _ _).period (periodInRange_installAnchor hmin hp hmax hn _ _)

/-! ### The rows -/

theorem tablesInRange_applyPeriod {s : State} (p : Nat) (h : TablesInRange s) : TablesInRange (applyPeriod s p) := by
  have he := evolves_settle (changePeriod s (clampPeriod s p))
  exact h.of_same (he.tables.trans (by simp)) (he.channels.trans (by simp))

theorem allInRange_putFollow (s : State) (tag : Byte) (args : List Byte) (h : AllInRange s) : AllInRange (putFollow s tag args).1 := by
  obtain ⟨⟨h1, h2, h3, h4, h5, -, h7⟩, ⟨-, -, -, -, hn⟩, hl⟩ := id h
  unfold putFollow
  split
  · rename_i p hp
    obtain ⟨hf, hmin, hle, hmax⟩ := followInRange_of_followProfile? hp
    have tables : TablesInRange (s.withTables { s.tables with follow := p }) := ⟨h1, h2, h3, h4, h5, hf, h7⟩
    change AllInRange (if _ then _ else _)
    split
    · refine ⟨tablesInRange_applyPeriod _ tables, periodInRange_applyPeriod (s := s.withTables { s.tables with follow := p }) hmin hle hmax hn _, hl.of_same (by simp) (by simp)⟩
    · rename_i hin
      simp only [periodOutside, Bool.or_eq_true, decide_eq_true_eq, not_or, not_lt] at hin
      exact ⟨tables, ⟨hmin, hin.1, hin.2, hmax, hn⟩, hl⟩
  · exact h

theorem allInRange_tableRows : TableRows AllInRange where
  putStop s _ args h := by
    obtain ⟨⟨h1, h2, h3, h4, h5, h6, h7⟩, hp, hl⟩ := id h
    unfold putStop
    split
    · refine .evolves (evolves_reformStops _) ⟨⟨h1, h2, fun n => ?_, h4, h5, h6, h7⟩, hp, hl⟩
      simp only [State.withTables_tables, vget_vset]
      split
      · exact ⟨min_le_right _ _, min_le_right _ _⟩
      · exact h3 n
    · exact h
  putDelay s _ args h := by
    obtain ⟨⟨h1, h2, h3, h4, h5, h6, h7⟩, hp, hl⟩ := id h
    unfold putDelay
    split
    · refine ⟨⟨h1, h2, h3, fun d => ?_, h5, h6, h7⟩, hp, hl⟩
      change (PerDiv.set _ _ _).get d ≤ _
      rw [PerDiv.get_set]
      split
      · exact min_le_right _ _
      · exact h4 d
    · exact h
  putSet s _ args h := by
    unfold putSet
    simp only
    split
    · change AllInRange (if _ then _ else _)
      split
      · exact .evolves (evolves_reformStops _) h
      · exact h
    · exact h
  putPlan s _ args h := by
    obtain ⟨⟨h1, h2, h3, h4, h5, h6, h7⟩, hp, hl⟩ := id h
    unfold putPlan
    split
    · rename_i _ he
      split
      · exact h
      · refine .evolves (evolves_formStop _) ⟨⟨h1, fun i => ?_, h3, h4, h5, h6, h7⟩, hp, hl⟩
        simp only [planEntry, State.withTables_tables, vget_vset]
        split
        · exact entryInRange_of_planEntry? he
        · exact h2 i
    · exact h
  putSize s _ args h := by
    obtain ⟨⟨-, h⟩, hp, hl⟩ := id h
    unfold putSize
    simp only
    split_ifs with hn
    · assumption
    · assumption
    · exact .evolves (evolves_formStop _) ⟨⟨Nat.not_lt.mp hn, h⟩, hp, hl⟩
  putFollow := allInRange_putFollow
  putPickup s _ args h := by
    obtain ⟨⟨h1, h2, h3, h4, h5, h6, -⟩, hp, hl⟩ := h
    exact ⟨⟨h1, h2, h3, h4, h5, h6, pickupInRange_pickupProfile args⟩, hp, hl⟩
  putSound s _ args h := by
    obtain ⟨⟨h1, h2, h3, h4, -, h6, h7⟩, hp, hl⟩ := h
    exact ⟨⟨h1, h2, h3, h4, min_le_right _ _, h6, h7⟩, hp, hl⟩

/-- No LIST-LENGTH is in flight with a length out of range. -/
def WorkInRange (w : Option Work) : Prop := ∀ l t, w = some (.length l t) → t ≤ 32768

theorem workInRange_none : WorkInRange none := nofun

theorem workInRange_walkFor (s : State) (n : StepNo) (t : Nat) (dest : ListNo) : WorkInRange (some (walkFor s n t dest)) := by
  intro l u h
  unfold walkFor at h
  split at h <;> cases h

theorem workInRange_walkOn (s : State) (n : StepNo) (t : Nat) (dest : ListNo) (x : StepNo) (rest : List StepNo) :
    WorkInRange (some (walkOn s n t dest x rest)) := by
  intro l u h
  unfold walkOn at h
  split at h
  · cases h
  · split at h <;> cases h

/-- The store changes but for its lengths, and the controller's work is one in range. -/
theorem AllInRange.of_list {s t : State} (h : AllInRange s) (ht : t.tables = s.tables) (hd : t.detector = s.detector) (hc : t.clock = s.clock)
    (hs : t.store.lengths = s.store.lengths) (hw : WorkInRange t.ctl.work) : AllInRange t :=
  ⟨h.1.of_same ht (by rw [hd]), h.2.1.of_same (by rw [ht]) (by rw [hc]) (by rw [hc]),
    fun l => by rw [phraseLength, hs]; exact h.2.2.1 l, hw⟩

theorem allInRange_toReady {s : State} (h : AllInRange s) : AllInRange (toReady s) :=
  .evolves (evolves_joinLists _) (h.of_list rfl rfl rfl rfl workInRange_none)

theorem allInRange_finishLink {s : State} (h : AllInRange s) (n : StepNo) (dest : ListNo) : AllInRange (finishLink s n dest) := by
  have done : ∀ k data, AllInRange (finishWith s k data) := fun _ _ => h.of_list rfl rfl rfl rfl workInRange_none
  unfold finishLink
  split
  · unfold finishNew
    split
    · exact h.of_list rfl rfl rfl rfl workInRange_none
    · exact allInRange_toReady (h.of_list rfl rfl rfl rfl workInRange_none)
  · exact done _ _
  · exact done _ _

theorem allInRange_visit {s : State} (h : AllInRange s) : AllInRange (visit s) := by
  unfold visit
  split
  · exact h
  · exact h.of_list rfl rfl rfl rfl (workInRange_walkFor _ _ _ _)
  · unfold setVisit
    simp only
    split
    · exact h.of_list rfl rfl rfl rfl workInRange_none
    · exact h.of_list rfl rfl rfl rfl (workInRange_walkFor _ _ _ _)
  · exact h.of_list rfl rfl rfl rfl (workInRange_walkOn _ _ _ _ _ _)
  · exact h.of_list rfl rfl rfl rfl nofun
  · exact allInRange_finishLink (h.of_list (t := relink s _ _ _ _) rfl rfl rfl rfl h.2.2.2) _ _
  · exact h.of_list rfl rfl rfl rfl workInRange_none
  · unfold emptyVisit
    split
    · simp only
      split
      · exact h.of_list rfl rfl rfl rfl workInRange_none
      · exact h.of_list rfl rfl rfl rfl nofun
    · exact h.of_list rfl rfl rfl rfl workInRange_none
  · rename_i l t hw
    refine ⟨h.1, h.2.1, fun k => ?_, workInRange_none⟩
    change vget (vset s.store.lengths l t) k ≤ 32768
    rw [vget_vset]
    split
    · exact h.2.2.2 l t hw
    · exact h.2.2.1 k

theorem allInRange_listRows : ListRows AllInRange where
  newStep s _ args h := by
    unfold newStep whenReady
    (repeat' split) <;> first | exact h | exact h.of_list rfl rfl rfl rfl nofun
  setStep s _ args h := by
    unfold setStep whenReady
    (repeat' split) <;> first | exact h | exact h.of_list rfl rfl rfl rfl nofun
  moveStep s _ args h := by
    unfold moveStep whenReady
    (repeat' split) <;> first | exact h | exact h.of_list rfl rfl rfl rfl (workInRange_walkFor _ _ _ _)
  freeStep s _ args h := by
    unfold freeStep whenReady
    (repeat' split) <;> first | exact h | exact h.of_list rfl rfl rfl rfl nofun
  emptyList s tag args h := by
    have begun : ∀ l, AllInRange (beginEmpty s tag l) := fun l => by
      unfold beginEmpty
      simp only
      split <;> exact h.of_list rfl rfl rfl rfl nofun
    unfold emptyList whenReady
    (repeat' split) <;> first | exact h | exact begun _
  setLength s tag args h := by
    unfold setLength whenReady
    split
    · split
      · split
        · exact h
        · rename_i hle
          split
          · exact h
          · exact h.of_list rfl rfl rfl rfl fun l t hw => by cases hw; exact Nat.not_lt.mp hle
      · exact h
    · exact h
  placeCtlReply s h := by
    unfold placeCtlReply
    split
    · simp only
      split
      · exact allInRange_toReady (h.same rfl rfl rfl rfl rfl)
      · exact h.same rfl rfl rfl rfl rfl
    · exact h
  visit s h := allInRange_visit h

theorem allInRange_stepInvariant : StepInvariant AllInRange where
  toTableRows := allInRange_tableRows
  toListRows := allInRange_listRows
  toFaultRows := .of_free (fun _ _ h => h.same rfl rfl rfl rfl rfl) (fun s => .evolves (evolves_reformStops s))
    (fun s d => .evolves (evolves_purge s d)) (fun s => .evolves (evolves_stopIfPlaying s))
    (fun s => .evolves (evolves_clearRegistration s)) (fun s a => .evolves (evolves_postAlert s a))
    (fun s => .evolves (evolves_waitingSwitches s)) fun s d => .evolves (evolves_resumeDivision s d)
  toRelayRows := .of_free fun _ _ ht h => h.same (by rw [ht]) (by rw [ht]) (by rw [ht]) (by rw [ht]) (by rw [ht])
  beginReset s c _ := ⟨tablesInRange_of_reset rfl rfl, periodInRange_of_reset (s := beginReset s c) rfl rfl,
    lengthsInRange_of_reset rfl rfl⟩
  endReset s straps four _ h := by
    obtain ⟨⟨h1, -, h3⟩, hp, hl⟩ := h
    refine ⟨⟨h1, fun i => ?_, h3⟩, hp, hl⟩
    have : planEntry (endReset s straps four) i = PlanEntry.reset four := vget_replicate _ i
    rw [this]
    exact entryInRange_reset four
  quiet h hs := hs.same (by rw [h.1]) (by rw [h.1]) (by rw [h.1]) (by rw [h.1]) (by rw [h.1])
  play h := .evolves h.evolves

/-- Settles O58: every row that writes a table clamps or refuses, and every period installed is clamped. -/
theorem everyStepKeepsTablesInRange : Obligations.EveryStepKeepsTablesInRange := by
  unfold Obligations.EveryStepKeepsTablesInRange
  exact fun s t h ht => allInRange_stepInvariant.keeps h ht

end Machine

end Sys2Proof
end

section
/-! PROOF. The store stays whole (O59): a step moves from chain to chain in one change, a walk brings it behind the last step no later
than it, and the lists play holds stay out of the command in flight. -/

namespace Sys2Proof

namespace Machine

set_option Elab.async false

/-! ### What the whole store depends on -/

theorem workSound_congr {s t : State} (hc : ∀ l, chain t l = chain s l) (hu : t.store.unplaced = s.store.unplaced)
    (hl : ∀ n, (stepRec t n).list = (stepRec s n).list) (ho : ∀ n, (stepRec t n).music.onset = (stepRec s n).music.onset)
    (hw : t.ctl.work = s.ctl.work) : WorkSound t ↔ WorkSound s := by
  simp only [WorkSound, Placeable, LaterAfter, hc, hu, hl, ho, hw]

theorem EachStepInOneList.of_same {s t : State} (hc : ∀ l, chain t l = chain s l) (hu : t.store.unplaced = s.store.unplaced)
    (hl : ∀ n, (stepRec t n).list = (stepRec s n).list) (h : EachStepInOneList s) : EachStepInOneList t := by
  simpa only [EachStepInOneList, hc, hu, hl] using h

theorem ListsInOrder.of_same {s t : State} (hc : ∀ l, chain t l = chain s l)
    (ho : ∀ n, (stepRec t n).music.onset = (stepRec s n).music.onset) (h : ListsInOrder s) : ListsInOrder t := by
  simpa only [ListsInOrder, hc, ho] using h

theorem StoreWhole.of_same {s t : State} (hc : ∀ l, chain t l = chain s l) (hu : t.store.unplaced = s.store.unplaced)
    (hl : ∀ n, (stepRec t n).list = (stepRec s n).list) (ho : ∀ n, (stepRec t n).music.onset = (stepRec s n).music.onset)
    (hw : t.ctl.work = s.ctl.work) (hp : t.ctl.phase = s.ctl.phase) (h : StoreWhole s) : StoreWhole t := by
  obtain ⟨heach, hord, hwork, hready⟩ := h
  exact ⟨heach.of_same hc hu hl, hord.of_same hc ho, (workSound_congr hc hu hl ho hw).mpr hwork, by rwa [hw, hp]⟩

theorem StoreWhole.same_store {s t : State} (hs : t.store = s.store) (hw : t.ctl.work = s.ctl.work)
    (hp : t.ctl.phase = s.ctl.phase) : StoreWhole s → StoreWhole t :=
  .of_same (fun _ => by rw [chain, hs]; rfl) (by rw [hs]) (fun _ => by rw [stepRec, hs]; rfl) (fun _ => by rw [stepRec, hs]; rfl)
    hw hp

theorem LocksClear.of_same {s t : State} (hf : t.follower.lockSet = s.follower.lockSet) (hp : t.tables.plan = s.tables.plan)
    (hs : t.ctl.cmd.source = s.ctl.cmd.source) (ht : t.ctl.cmd.target = s.ctl.cmd.target) (h : LocksClear s) : LocksClear t := by
  unfold LocksClear involved involvedLists planEntry
  rw [hf, hp, hs, ht]
  exact h

/-- The store is whole, and the lock set clear of the command in flight. -/
def WholeAndClear (s : State) : Prop := StoreWhole s ∧ LocksClear s

theorem WholeAndClear.evolves {s t : State} (he : Evolves s t) (h : WholeAndClear s) : WholeAndClear t :=
  ⟨h.1.of_same (fun l => by rw [chain, he.score.chains]; rfl) he.score.unplaced he.score.list
    (fun n => by rw [stepRec, he.score.music]; rfl) (by rw [he.ctl]) (by rw [he.ctl]), he.locks h.2⟩

theorem WholeAndClear.same {s t : State} (h : WholeAndClear s) (hs : t.store = s.store) (hc : t.ctl = s.ctl)
    (hf : t.follower = s.follower) (hp : t.tables.plan = s.tables.plan) : WholeAndClear t :=
  ⟨h.1.same_store hs (by rw [hc]) (by rw [hc]), h.2.of_same (by rw [hf]) hp (by rw [hc]) (by rw [hc])⟩

/-! ### Walks -/

/-- The walk of a placeable step begins at the last step of its list. -/
theorem workSound_walkFor {s u : State} {n : StepNo} {t : Nat} {l : ListNo} (hp : Placeable s n l)
    (hu : u = s.withCtl { u.ctl with work := some (walkFor s n t l) }) : WorkSound u := by
  have hstep : ∀ k, stepRec u k = stepRec s k := fun k => by rw [hu]; rfl
  have hchain : ∀ k, chain u k = chain s k := fun k => by rw [hu]; rfl
  have hplace : Placeable u n l := by
    have hun : u.store.unplaced = s.store.unplaced := by rw [hu]; rfl
    simpa only [Placeable, hstep, hun] using hp
  have hwork : u.ctl.work = some (walkFor s n t l) := by rw [hu]; rfl
  unfold WorkSound
  rw [hwork]
  unfold walkFor
  cases hw : (chain s l).reverse.filter fun x => decide (x ≠ n) with
  | nil =>
    refine ⟨hplace, fun y hy hne => ?_⟩
    rw [hchain] at hy
    simpa [hne, hy] using List.filter_eq_nil_iff.mp hw y
  | cons x rest =>
    obtain ⟨later, earlier, hsplit, hlater, hx, hrest⟩ := List.filter_eq_cons_iff.mp hw
    have hxn : x ≠ n := by simpa using hx
    have hchainx : chain u l = earlier.reverse ++ x :: later.reverse := by
      rw [hchain, ← List.reverse_reverse (chain s l), hsplit]; simp
    have only : ∀ y ∈ later.reverse, y = n := fun y hy => by simpa using hlater y (List.mem_reverse.mp hy)
    exact ⟨hplace, hxn, ⟨earlier.reverse, later.reverse, hchainx, fun y hy hne => absurd (only y hy) hne⟩,
      earlier.reverse, later.reverse, hchainx, by rw [List.reverse_reverse]; exact hrest.symm⟩

theorem nodup_split {a b a' b' : List StepNo} {x : StepNo} (hn : (a ++ x :: b).Nodup) (h : a ++ x :: b = a' ++ x :: b') :
    a = a' ∧ b = b' := by
  obtain ⟨-, hxb, hab⟩ := List.nodup_append.mp hn
  have ha : x ∉ a := fun hx => hab x hx x List.mem_cons_self rfl
  have hb : x ∉ b := (List.nodup_cons.mp hxb).1
  obtain ⟨h1, -, h2⟩ := (List.append_cons_inj_of_notMem ha hb).mp h
  exact ⟨h1, h2⟩

/-- A walk's visit examines one step and goes on before it. -/
theorem workSound_walkOn {s u : State} {n : StepNo} {t : Nat} {l : ListNo} {x : StepNo} {rest : List StepNo}
    (hnodup : (chain s l).Nodup) (hs : WorkSound s) (hw : s.ctl.work = some (.walk n t l (x :: rest)))
    (hu : u = s.withCtl { u.ctl with work := some (walkOn s n t l x rest) }) : WorkSound u := by
  have hstep : ∀ k, stepRec u k = stepRec s k := fun k => by rw [hu]; rfl
  have hchain : ∀ k, chain u k = chain s k := fun k => by rw [hu]; rfl
  have hun : u.store.unplaced = s.store.unplaced := by rw [hu]; rfl
  have hwork : u.ctl.work = some (walkOn s n t l x rest) := by rw [hu]; rfl
  unfold WorkSound at hs ⊢
  rw [hw] at hs
  obtain ⟨hp, hxn, ⟨a', b', hsplit', hlater'⟩, a, b, hsplit, rfl⟩ := hs
  obtain ⟨rfl, rfl⟩ : a = a' ∧ b = b' := nodup_split (hsplit ▸ hnodup) (hsplit ▸ hsplit')
  have hplace : Placeable u n l := by simpa only [Placeable, hstep, hun] using hp
  rw [hwork]
  unfold walkOn
  by_cases hle : (stepRec s x).music.onset ≤ t
  · rw [if_pos hle]
    exact ⟨hplace, hxn, by rwa [hstep], a, b, by rw [hchain]; exact hsplit, by simpa only [hstep] using hlater'⟩
  · rw [if_neg hle]
    have later : ∀ y ∈ x :: b, y ≠ n → t < (stepRec u y).music.onset := fun y hy hne => by
      rw [hstep]
      rcases List.mem_cons.mp hy with rfl | hy
      · exact Nat.not_le.mp hle
      · exact hlater' y hy hne
    cases hf : a.reverse.filter fun y => decide (y ≠ n) with
    | nil =>
      refine ⟨hplace, fun y hy hne => ?_⟩
      rw [hchain, hsplit] at hy
      rcases List.mem_append.mp hy with hy | hy
      · exact absurd (by simpa [hy] using List.filter_eq_nil_iff.mp hf y) hne
      · exact later y hy hne
    | cons y more =>
      obtain ⟨between, earlier, hrev, hbetween, hy, hmore⟩ := List.filter_eq_cons_iff.mp hf
      have hchainy : chain u l = earlier.reverse ++ y :: (between.reverse ++ x :: b) := by
        rw [hchain, hsplit, ← List.reverse_reverse a, hrev]; simp
      refine ⟨hplace, by simpa using hy, ⟨_, _, hchainy, fun z hz hne => ?_⟩, _, _, hchainy,
        by rw [List.reverse_reverse]; exact hmore.symm⟩
      rcases List.mem_append.mp hz with hz | hz
      · exact absurd (by simpa using hbetween z (List.mem_reverse.mp hz)) hne
      · exact later z hz hne

/-! ### A step moves to another chain -/

/-- Step `n` leaves its chain and joins that of list `dest`. -/
theorem EachStepInOneList.moved {s t : State} {n : StepNo} {dest : ListNo} (h : EachStepInOneList s)
    (hs : s.store.unplaced = none ∨ s.store.unplaced = some n) (ht : t.store.unplaced = none)
    (hl : ∀ k, (stepRec t k).list = if k = n then dest else (stepRec s k).list)
    (hc : ∀ l, l ≠ dest → chain t l = (chain s l).erase n) (hd : (chain t dest).Perm (n :: (chain s dest).erase n)) :
    EachStepInOneList t := by
  obtain ⟨hnodup, hmem⟩ := h
  have out : ∀ l, n ∉ (chain s l).erase n := fun l => (hnodup l).not_mem_erase
  have other : ∀ k l, k ≠ n → (k ∈ (chain s l).erase n ↔ (stepRec s k).list = l) := fun k l hk => by
    rw [List.mem_erase_of_ne hk, hmem]
    refine and_iff_left ?_
    rcases hs with hs | hs <;> simp [hs, Ne.symm hk]
  refine ⟨fun l => ?_, fun k l => ?_⟩
  · by_cases hld : l = dest
    · rw [hld, hd.nodup_iff]
      exact List.nodup_cons.mpr ⟨out dest, (hnodup dest).erase n⟩
    · rw [hc l hld]
      exact (hnodup l).erase n
  · have split : k ∈ chain t l ↔ if l = dest then k = n ∨ k ∈ (chain s l).erase n else k ∈ (chain s l).erase n := by
      by_cases hld : l = dest
      · rw [hld, hd.mem_iff]; simp
      · simp [hc l hld, hld]
    rw [split, hl, ht]
    by_cases hk : k = n
    · by_cases hld : l = dest
      · simp [hk, hld]
      · simp [hk, hld, out l, Ne.symm hld]
    · simp only [hk, if_false, false_or, other k l hk, ite_self, ne_eq, reduceCtorEq, not_false_eq_true, and_true]

/-- The other lists keep their order when step `n` leaves them. -/
theorem pairwise_erase {s t : State} {n : StepNo} {l : ListNo} (hnodup : (chain s l).Nodup)
    (h : (chain s l).Pairwise fun a b => (stepRec s a).music.onset ≤ (stepRec s b).music.onset)
    (ho : ∀ k, k ≠ n → (stepRec t k).music.onset = (stepRec s k).music.onset) :
    ((chain s l).erase n).Pairwise fun a b => (stepRec t a).music.onset ≤ (stepRec t b).music.onset := by
  refine List.Pairwise.imp_of_mem (fun {a b} ha hb hab => ?_) (h.sublist (List.erase_sublist (a := n)))
  have hne : ∀ k ∈ (chain s l).erase n, k ≠ n := fun k hk he => hnodup.not_mem_erase (he ▸ hk)
  rw [ho a (hne a ha), ho b (hne b hb)]
  exact hab

theorem insertAfter_perm (c : List StepNo) (x : Option StepNo) (n : StepNo) : (insertAfter c x n).Perm (n :: c) := by
  induction c with
  | nil => cases x <;> exact .refl _
  | cons first later ih =>
    cases x with
    | none => exact .refl _
    | some a =>
      simp only [insertAfter]
      split
      · exact .swap _ _ _
      · exact (ih.cons first).trans (.swap _ _ _)

theorem insertAfter_split {a b : List StepNo} {x : StepNo} (h : x ∉ a) (n : StepNo) :
    insertAfter (a ++ x :: b) (some x) n = a ++ x :: n :: b := by
  induction a with
  | nil => simp [insertAfter]
  | cons y a ih =>
    rw [List.mem_cons, not_or] at h
    simp only [List.cons_append, insertAfter, if_neg (Ne.symm h.1)]
    rw [ih h.2]

/-- Step `n` of onset `t` goes after `x`: no step before is later than it, and every step after is. -/
theorem pairwise_insertAfter {c : List StepNo} {n : StepNo} {x : Option StepNo} {f : StepNo → Nat} (hnodup : c.Nodup)
    (hc : c.Pairwise fun a b => f a ≤ f b)
    (hx : match x with
      | none => ∀ y ∈ c, f n ≤ f y
      | some x => f x ≤ f n ∧ ∃ a b, c = a ++ x :: b ∧ ∀ y ∈ b, f n ≤ f y) :
    (insertAfter c x n).Pairwise fun a b => f a ≤ f b := by
  cases x with
  | none =>
    have : insertAfter c none n = n :: c := by cases c <;> rfl
    rw [this]
    exact List.pairwise_cons.mpr ⟨hx, hc⟩
  | some x =>
    obtain ⟨hle, a, b, rfl, hb⟩ := hx
    have hxa : x ∉ a := fun h => (List.nodup_append.mp hnodup).2.2 x h x List.mem_cons_self rfl
    rw [insertAfter_split hxa]
    obtain ⟨ha, hxb, hab⟩ := List.pairwise_append.mp hc
    obtain ⟨hxb', hbb⟩ := List.pairwise_cons.mp hxb
    refine List.pairwise_append.mpr ⟨ha, List.pairwise_cons.mpr ⟨fun y hy => ?_, List.pairwise_cons.mpr ⟨hb, hbb⟩⟩, fun y hy z hz => ?_⟩
    · rcases List.mem_cons.mp hy with rfl | hy
      · exact hle
      · exact hxb' y hy
    · rcases List.mem_cons.mp hz with rfl | hz
      · exact hab y hy z List.mem_cons_self
      · rcases List.mem_cons.mp hz with rfl | hz
        · exact (hab y hy x List.mem_cons_self).trans hle
        · exact hab y hy z (List.mem_cons_of_mem _ hz)

/-! ### The link visit -/

theorem stepRec_relink (s : State) (n : StepNo) (t : Nat) (dest : ListNo) (x : Option StepNo) (k : StepNo) :
    stepRec (relink s n t dest x) k =
      if k = n then { stepRec s n with music := { (stepRec s n).music with onset := t }, list := dest } else stepRec s k := by
  change stepRec (withListField (writeOnset (withChain (unlink s _ n) dest _) n t) n dest) k = _
  by_cases hk : k = n <;> simp [withListField, writeOnset, stepRec_writeStep, unlink, hk]

theorem chain_relink (s : State) (n : StepNo) (t : Nat) (dest : ListNo) (x : Option StepNo) (l : ListNo)
    (hout : ∀ l, l ≠ (stepRec s n).list → n ∉ chain s l) :
    chain (relink s n t dest x) l =
      if l = dest then insertAfter ((chain s dest).erase n) x n else (chain s l).erase n := by
  have hun : ∀ l, chain (unlink s (stepRec s n).list n) l = (chain s l).erase n := fun l => by
    rw [unlink, chain_withChain]
    split
    · rename_i he; rw [he]
    · rename_i he; rw [List.erase_of_not_mem (hout l he)]
  change chain (withListField (writeOnset (withChain (unlink s _ n) dest _) n t) n dest) l = _
  simp only [withListField, writeOnset, chain_writeStep, chain_withChain, hun]

/-- The store after a placed step's link. -/
theorem storeWhole_relink {s : State} {n : StepNo} {t : Nat} {dest : ListNo} {x : Option StepNo} (h : StoreWhole s)
    (hw : s.ctl.work = some (.link n t dest x)) :
    EachStepInOneList (relink s n t dest x) ∧ ListsInOrder (relink s n t dest x) ∧ (relink s n t dest x).store.unplaced = none := by
  obtain ⟨heach, hord, hwork, -⟩ := h
  obtain ⟨hnodup, hmem⟩ := id heach
  have hplace : Placeable s n dest := by
    unfold WorkSound at hwork
    rw [hw] at hwork
    cases x <;> exact hwork.1
  have hun : s.store.unplaced = none ∨ s.store.unplaced = some n := hplace.2.elim (fun h => .inr h.1) fun h => .inl h.1
  have hunt : (relink s n t dest x).store.unplaced = none := by
    change (if s.store.unplaced = some n then none else s.store.unplaced) = none
    rcases hun with hun | hun <;> simp [hun]
  have hout : ∀ l, l ≠ (stepRec s n).list → n ∉ chain s l := fun l hl hn => hl ((hmem n l).mp hn).1.symm
  have hchain := fun l => chain_relink s n t dest x l hout
  have hrec := stepRec_relink s n t dest x
  have onset : ∀ k, k ≠ n → (stepRec (relink s n t dest x) k).music.onset = (stepRec s k).music.onset := fun k hk => by
    rw [hrec, if_neg hk]
  refine ⟨heach.moved hun hunt (fun k => ?_) (fun l hl => by rw [hchain, if_neg hl]) ?_, fun l hl => ?_, hunt⟩
  · rw [hrec]; split <;> rfl
  · rw [hchain, if_pos rfl]; exact insertAfter_perm _ x n
  · rw [hchain]
    by_cases hld : l = dest
    · subst hld
      rw [if_pos rfl]
      refine pairwise_insertAfter (f := fun k => (stepRec (relink s n t l x) k).music.onset) ((hnodup l).erase n)
        (pairwise_erase (hnodup l) (hord l hl) onset) ?_
      have honset : (stepRec (relink s n t l x) n).music.onset = t := by rw [hrec, if_pos rfl]
      simp only [honset]
      unfold WorkSound at hwork
      rw [hw] at hwork
      cases x with
      | none =>
        intro y hy
        have hne : y ≠ n := fun he => (hnodup l).not_mem_erase (he ▸ hy)
        simp only [onset y hne]
        exact (hwork.2 y (List.mem_of_mem_erase hy) hne).le
      | some x =>
        obtain ⟨-, hxn, hle, a, b, hsplit, hlater⟩ := hwork
        simp only [onset x hxn]
        refine ⟨hle, a.filter (fun y => y != n), b.filter (fun y => y != n), ?_, fun y hy => ?_⟩
        · rw [(hnodup l).erase_eq_filter, hsplit, List.filter_append, List.filter_cons]
          simp [hxn]
        · obtain ⟨hyb, hyn⟩ := List.mem_filter.mp hy
          have hyn : y ≠ n := by simpa using hyn
          simp only [onset y hyn]
          exact (hlater y hyb hyn).le
    · rw [if_neg hld]
      exact pairwise_erase (hnodup l) (hord l hl) onset

/-! ### Steps freed -/

/-- Step `n`, of a phrase list, goes to the tail of the free list. -/
theorem storeWhole_freed {s t : State} {n : StepNo} (h : StoreWhole s) (hun : s.store.unplaced = none)
    (htun : t.store.unplaced = none) (hlist : (stepRec s n).list ≠ 0)
    (hrec : ∀ k, stepRec t k = if k = n then { stepRec s n with list := 0 } else stepRec s k)
    (hchain : ∀ l, chain t l = if l = 0 then chain s 0 ++ [n] else (chain s l).erase n) :
    EachStepInOneList t ∧ ListsInOrder t := by
  obtain ⟨heach, hord, -, -⟩ := h
  obtain ⟨hnodup, hmem⟩ := id heach
  have hfree : n ∉ chain s 0 := fun hn => hlist ((hmem n 0).mp hn).1
  refine ⟨heach.moved (.inl hun) htun (fun k => ?_) (fun l hl => by rw [hchain, if_neg hl]) ?_, fun l hl => ?_⟩
  · rw [hrec]; split <;> rfl
  · rw [hchain, if_pos rfl, List.erase_of_not_mem hfree]
    exact List.perm_append_singleton n _
  · rw [hchain, if_neg hl]
    exact pairwise_erase (hnodup l) (hord l hl) fun k hk => by rw [hrec, if_neg hk]

theorem stepRec_appendFree (s : State) (n k : StepNo) :
    stepRec (appendFree s n) k = if k = n then { stepRec s n with list := 0 } else stepRec s k := by
  simp [appendFree, withListField, stepRec_writeStep]

theorem chain_appendFree (s : State) (n : StepNo) (l : ListNo) :
    chain (appendFree s n) l = if l = 0 then chain s 0 ++ [n] else chain s l := by
  simp [appendFree, withListField, chain_withChain]

/-! ### The visits -/

/-- With no visit left, in READY or not, the whole store asks for no unplaced step. -/
theorem StoreWhole.of_done {s : State} (heach : EachStepInOneList s) (hord : ListsInOrder s) (hun : s.store.unplaced = none)
    (hw : s.ctl.work = none) : StoreWhole s := by
  refine ⟨heach, hord, ?_, fun _ => hw⟩
  unfold WorkSound
  rw [hw]
  exact hun

theorem wholeAndClear_toReady {s : State} (heach : EachStepInOneList s) (hord : ListsInOrder s) (hun : s.store.unplaced = none)
    (hl : ∀ l ∈ s.follower.lockSet, l ≠ 0) (hp : ∀ i, (planEntry s i).list ≠ 0) : WholeAndClear (toReady s) := by
  refine .evolves (evolves_joinLists _) ⟨.of_done (s := s.withCtl _) heach hord hun rfl, fun l h => ⟨hl l h, rfl⟩, hp⟩

theorem unplaced_of_workSound {s : State} (h : WorkSound s) (hw : s.ctl.work = none) : s.store.unplaced = none := by
  unfold WorkSound at h; rwa [hw] at h

/-- Writing the musical fields of a step that stands in no chain, or leaving its onset, keeps chains and order. -/
theorem storeWhole_writeMusic {s : State} {n : StepNo} {m : Musical} (heach : EachStepInOneList s) (hord : ListsInOrder s)
    (h : s.store.unplaced = some n ∨ m.onset = (stepRec s n).music.onset) :
    EachStepInOneList (writeMusic s n m) ∧ ListsInOrder (writeMusic s n m) := by
  have hrec : ∀ k, stepRec (writeMusic s n m) k = if k = n then clearedResult { stepRec s n with music := m } else stepRec s k :=
    fun k => stepRec_writeStep s n k _
  refine ⟨EachStepInOneList.of_same (s := s) (fun _ => rfl) rfl (fun k => ?_) heach, fun l hl => ?_⟩
  · rw [hrec]; split
    · rename_i hk; rw [hk]; rfl
    · rfl
  · have onset : ∀ k ∈ chain s l, (stepRec (writeMusic s n m) k).music.onset = (stepRec s k).music.onset := fun k hk => by
      rw [hrec]
      split
      · rename_i hkn
        subst hkn
        rcases h with h | h
        · exact absurd h ((heach.2 k l).mp hk).2
        · exact h
      · rfl
    change (chain s l).Pairwise _
    exact (hord l hl).imp_of_mem fun ha hb hab => by rw [onset _ ha, onset _ hb]; exact hab

theorem placeable_writeMusic {s : State} {n : StepNo} {m : Musical} {l : ListNo} (h : Placeable s n l) :
    Placeable (writeMusic s n m) n l := by
  have hrec : (stepRec (writeMusic s n m) n).list = (stepRec s n).list := by
    rw [writeMusic, stepRec_writeStep, if_pos rfl]; rfl
  unfold Placeable at h ⊢
  rw [hrec]
  exact h

theorem wholeAndClear_finishLink {s : State} (heach : EachStepInOneList s) (hord : ListsInOrder s)
    (hun : s.store.unplaced = none) (hl : LocksClear s) (n : StepNo) (dest : ListNo) :
    WholeAndClear (finishLink s n dest) := by
  have done : ∀ k data, WholeAndClear (finishWith s k data) := fun k data =>
    ⟨.of_done (s := finishWith s k data) heach hord hun rfl, hl⟩
  unfold finishLink
  split
  · unfold finishNew
    split
    · exact ⟨.of_done (s := withWork s none) heach hord hun rfl, hl⟩
    · exact wholeAndClear_toReady (s := withWork s none) heach hord hun (fun l h => (hl.1 l h).1) hl.2
  · exact done _ _
  · exact done _ _

theorem wholeAndClear_visit {s : State} (h : WholeAndClear s) : WholeAndClear (visit s) := by
  obtain ⟨hwhole, hl⟩ := id h
  obtain ⟨heach, hord, hwork, hready⟩ := id hwhole
  have busy : ∀ {w}, s.ctl.work = some w → s.ctl.phase ≠ .ready := fun hw hp => by rw [hready hp] at hw; cases hw
  unfold visit
  split
  case h_1 => exact h
  case h_2 n m dest hw =>
    unfold WorkSound at hwork
    rw [hw] at hwork
    obtain ⟨hne, hun, hlist⟩ := hwork
    obtain ⟨heach', hord'⟩ := storeWhole_writeMusic (m := m) heach hord (.inl hun)
    have hp : Placeable (writeMusic s n m) n dest := placeable_writeMusic ⟨hne, .inl ⟨hun, hlist⟩⟩
    exact ⟨⟨heach', hord', workSound_walkFor hp rfl, fun hp => absurd hp (busy hw)⟩, hl⟩
  case h_3 n m dest hw =>
    unfold WorkSound at hwork
    rw [hw] at hwork
    obtain ⟨hne, hun, hlist⟩ := hwork
    obtain ⟨heach', hord'⟩ := storeWhole_writeMusic (m := { m with onset := (stepRec s n).music.onset }) heach hord (.inr rfl)
    unfold setVisit
    simp only
    split
    · exact ⟨.of_done (s := finishWith _ _ _) heach' hord' hun rfl, hl⟩
    · have hp : Placeable (writeMusic s n { m with onset := (stepRec s n).music.onset }) n dest :=
        placeable_writeMusic ⟨hne, .inr ⟨hun, hlist ▸ hne⟩⟩
      exact ⟨⟨heach', hord', workSound_walkFor hp rfl, fun hp => absurd hp (busy hw)⟩, hl⟩
  case h_4 n t dest x rest hw =>
    exact ⟨⟨heach, hord, workSound_walkOn (heach.1 dest) hwork hw rfl, fun hp => absurd hp (busy hw)⟩, hl⟩
  case h_5 n t dest hw =>
    refine ⟨⟨heach, hord, ?_, fun hp => absurd hp (busy hw)⟩, hl⟩
    unfold WorkSound at hwork ⊢
    rw [hw] at hwork
    exact hwork
  case h_6 n t dest x hw =>
    obtain ⟨heach', hord', hun⟩ := storeWhole_relink hwhole hw
    exact wholeAndClear_finishLink heach' hord' hun hl n dest
  case h_7 n hw =>
    unfold WorkSound at hwork
    rw [hw] at hwork
    obtain ⟨hun, hne⟩ := hwork
    obtain ⟨heach', hord'⟩ := storeWhole_freed (t := appendFree (unlink s (stepRec s n).list n) n) hwhole hun hun hne
      (fun k => stepRec_appendFree _ n k) fun l => by
        rw [chain_appendFree, unlink, chain_withChain, chain_withChain, if_neg (Ne.symm hne)]
        split
        · rfl
        · split
          · rename_i he; rw [he]
          · rename_i he
            rw [List.erase_of_not_mem fun hn => he ((heach.2 n l).mp hn).1.symm]
    exact ⟨.of_done (s := finishWith _ _ _) heach' hord' hun rfl, hl⟩
  case h_8 l moved hw =>
    unfold WorkSound at hwork
    rw [hw] at hwork
    obtain ⟨hun, hne⟩ := hwork
    unfold emptyVisit
    split
    · rename_i n rest hc
      have hlist : (stepRec s n).list = l := ((heach.2 n l).mp (by rw [hc]; exact List.mem_cons_self)).1
      obtain ⟨heach', hord'⟩ := storeWhole_freed (t := appendFree (withChain s l rest) n) hwhole hun hun (hlist ▸ hne)
        (fun k => stepRec_appendFree _ n k) fun k => by
          rw [chain_appendFree, chain_withChain, chain_withChain, if_neg (Ne.symm hne)]
          split
          · rfl
          · split
            · rename_i he; rw [he, hc, List.erase_cons_head]
            · rename_i he
              rw [List.erase_of_not_mem fun hn => he (((heach.2 n k).mp hn).1.symm.trans hlist)]
      simp only
      split
      · exact ⟨.of_done (s := finishWith _ _ _) heach' hord' hun rfl, hl⟩
      · exact ⟨⟨heach', hord', ⟨hun, hne⟩, fun hp => absurd hp (busy hw)⟩, hl⟩
    · exact ⟨.of_done (s := finishWith _ _ _) heach hord hun rfl, hl⟩
  case h_9 l t hw =>
    unfold WorkSound at hwork
    rw [hw] at hwork
    exact ⟨.of_done (s := finishWith _ _ _) heach hord hwork.1 rfl, hl⟩

/-! ### The requests of the lists -/

theorem listLocked_false {s : State} {l : ListNo} (h : ¬listLocked s l = true) : l ∉ s.follower.lockSet := fun hl =>
  h (List.contains_iff_mem.mpr hl)

/-- A command is taken on lists that are not locked. -/
theorem locksClear_begin {s t : State} (h : LocksClear s) (hf : t.follower = s.follower) (ht : t.tables = s.tables)
    (hsrc : ∀ l, t.ctl.cmd.source = some l → l ∉ s.follower.lockSet)
    (htgt : ∀ l, t.ctl.cmd.target = some l → l ∉ s.follower.lockSet) : LocksClear t := by
  refine ⟨fun l hl => ?_, fun i => by rw [planEntry, ht]; exact h.2 i⟩
  rw [hf] at hl
  refine ⟨(h.1 l hl).1, Bool.eq_false_iff.mpr fun hin => ?_⟩
  rcases List.mem_append.mp (List.contains_iff_mem.mp hin) with hin | hin
  · exact hsrc l (Option.mem_toList.mp hin) hl
  · exact htgt l (Option.mem_toList.mp hin) hl

theorem ready_work {s : State} (h : StoreWhole s) (hp : s.ctl.phase = .ready) : s.store.unplaced = none :=
  unplaced_of_workSound h.2.2.1 (h.2.2.2 hp)

theorem usedStep?_list {s : State} {k : Nat} {n : StepNo} (h : usedStep? s k = some n) : (stepRec s n).list ≠ 0 := by
  simpa using (Option.filter_eq_some_iff.mp h).2

theorem phraseList?_ne {k : Nat} {l : ListNo} (h : phraseList? k = some l) : l ≠ 0 := by
  simpa using (Option.filter_eq_some_iff.mp h).2

theorem wholeAndClear_beginNew {s : State} (h : WholeAndClear s) (hp : s.ctl.phase = .ready) {n : StepNo} {rest : List StepNo}
    (hc : chain s 0 = n :: rest) {l : ListNo} (hl : l ≠ 0) (hfree : ¬listLocked s l = true) (tag : Byte) (m : Musical) :
    WholeAndClear (beginNew s tag n l m) := by
  obtain ⟨hwhole, hlocks⟩ := h
  obtain ⟨⟨hnodup, hmem⟩, hord, -, -⟩ := id hwhole
  have hun := ready_work hwhole hp
  have hn0 : (stepRec s n).list = 0 := ((hmem n 0).mp (by rw [hc]; exact List.mem_cons_self)).1
  have hrec : ∀ k, stepRec (beginNew s tag n l m) k = if k = n then { stepRec s n with list := l } else stepRec s k := fun k => by
    change stepRec (withListField (unlink s 0 n) n l) k = _
    rw [withListField, stepRec_writeStep, unlink, stepRec_withChain, stepRec_withChain]
  have hchain : ∀ k, chain (beginNew s tag n l m) k = (chain s k).erase n := fun k => by
    change chain (withListField (unlink s 0 n) n l) k = _
    rw [withListField, chain_writeStep, unlink, chain_withChain]
    split
    · rename_i he; rw [he]
    · rename_i he; rw [List.erase_of_not_mem fun hn => he (((hmem n k).mp hn).1.symm.trans hn0)]
  have hunt : (beginNew s tag n l m).store.unplaced = some n := rfl
  refine ⟨⟨⟨fun k => ?_, fun j k => ?_⟩, fun k hk => ?_, ⟨hl, hunt, ?_⟩, nofun⟩,
    locksClear_begin hlocks rfl rfl nofun fun k hk => by cases hk; exact listLocked_false hfree⟩
  · rw [hchain]; exact (hnodup k).erase n
  · rw [hchain, hrec, hunt]
    by_cases hj : j = n
    · subst hj
      simp [(hnodup k).not_mem_erase]
    · rw [List.mem_erase_of_ne hj, hmem, hun, if_neg hj]
      simp [Ne.symm hj]
  · rw [hchain]
    refine pairwise_erase (hnodup k) (hord k hk) fun j hj => by rw [hrec, if_neg hj]
  · rw [hrec, if_pos rfl]

/-- A command other than STEP-NEW leaves the store at its taking. -/
theorem wholeAndClear_begin {s : State} (h : WholeAndClear s) {tag : Byte} {cmd : CommandRecord} {w : Work}
    (hw : WorkSound (begin_ s tag cmd w)) (hsrc : ∀ l, cmd.source = some l → l ∉ s.follower.lockSet)
    (htgt : ∀ l, cmd.target = some l → l ∉ s.follower.lockSet) : WholeAndClear (begin_ s tag cmd w) :=
  ⟨⟨h.1.1, h.1.2.1, hw, nofun⟩, locksClear_begin h.2 rfl rfl hsrc htgt⟩

theorem zero_not_locked {s : State} (h : LocksClear s) : (0 : ListNo) ∉ s.follower.lockSet := fun h0 => (h.1 0 h0).1 rfl

theorem wholeAndClear_listRows : ListRows WholeAndClear where
  newStep s tag args h := by
    unfold newStep whenReady
    split
    · rename_i hp
      split
      · rename_i hlist _
        split
        · exact h
        · rename_i hfree
          split
          · exact wholeAndClear_beginNew h hp (by assumption) (phraseList?_ne hlist) hfree tag _
          · exact h
      · exact h
    · exact h
  setStep s tag args h := by
    unfold setStep whenReady
    split
    · rename_i hp
      have hun := ready_work h.1 hp
      split
      · rename_i hstep _
        split
        · exact h
        · rename_i hfree
          exact wholeAndClear_begin h ⟨usedStep?_list hstep, hun, rfl⟩
            (fun l hl => by cases hl; exact listLocked_false hfree) nofun
      · exact h
    · exact h
  moveStep s tag args h := by
    unfold moveStep whenReady
    split
    · rename_i hp
      have hun := ready_work h.1 hp
      split
      · rename_i hstep hlist
        split
        · exact h
        · rename_i hfree
          rw [Bool.or_eq_true, not_or] at hfree
          exact wholeAndClear_begin h
            (workSound_walkFor ⟨phraseList?_ne hlist, .inr ⟨hun, usedStep?_list hstep⟩⟩ rfl)
            (fun l hl => by cases hl; exact listLocked_false hfree.1) fun l hl => by cases hl; exact listLocked_false hfree.2
      · exact h
    · exact h
  freeStep s tag args h := by
    unfold freeStep whenReady
    split
    · rename_i hp
      have hun := ready_work h.1 hp
      split
      · rename_i hstep
        split
        · exact h
        · rename_i hfree
          exact wholeAndClear_begin h ⟨hun, usedStep?_list hstep⟩
            (fun l hl => by cases hl; exact listLocked_false hfree) fun l hl => by cases hl; exact zero_not_locked h.2
      · exact h
    · exact h
  emptyList s tag args h := by
    unfold emptyList whenReady
    split
    · rename_i hp
      have hun := ready_work h.1 hp
      split
      · rename_i l hlist
        split
        · exact h
        · rename_i hfree
          have begun := wholeAndClear_begin (tag := tag)
            (cmd := { kind := some .listEmpty, step := none, source := some l, target := some 0 }) (w := .empty l 0) h
            ⟨hun, phraseList?_ne hlist⟩
            (fun l hl => by cases hl; exact listLocked_false hfree) fun l hl => by cases hl; exact zero_not_locked h.2
          change WholeAndClear (if _ then _ else _)
          split
          · exact ⟨.of_done (s := finishWith _ _ _) begun.1.1 begun.1.2.1 hun rfl, begun.2⟩
          · exact begun
      · exact h
    · exact h
  setLength s tag args h := by
    unfold setLength whenReady
    split
    · rename_i hp
      have hun := ready_work h.1 hp
      split
      · rename_i hlist
        split
        · exact h
        · split
          · exact h
          · rename_i hfree
            exact wholeAndClear_begin h ⟨hun, phraseList?_ne hlist⟩
              (fun l hl => by cases hl; exact listLocked_false hfree) nofun
      · exact h
    · exact h
  placeCtlReply s h := by
    obtain ⟨hwhole, hl⟩ := id h
    unfold placeCtlReply
    split
    · simp only
      split
      · rename_i hw
        exact wholeAndClear_toReady (s := (s.withRelay _).withCtl _) hwhole.1 hwhole.2.1 (unplaced_of_workSound hwhole.2.2.1 hw)
          (fun l h => (hl.1 l h).1) hl.2
      · exact ⟨⟨hwhole.1, hwhole.2.1, hwhole.2.2.1, nofun⟩, hl⟩
    · exact h
  visit s h := wholeAndClear_visit h

theorem wholeAndClear_tableRows : TableRows WholeAndClear where
  putStop s _ args h := by
    unfold putStop
    split
    · exact .evolves (evolves_reformStops _) (h.same rfl rfl rfl rfl)
    · exact h
  putDelay s _ args h := by
    unfold putDelay
    split
    · exact h.same rfl rfl rfl rfl
    · exact h
  putSet s _ args h := by
    unfold putSet
    simp only
    split
    · change WholeAndClear (if _ then _ else _)
      split
      · exact .evolves (evolves_reformStops _) (h.same rfl rfl rfl rfl)
      · exact h.same rfl rfl rfl rfl
    · exact h
  putPlan s _ args h := by
    unfold putPlan
    split
    · rename_i e _ he
      split
      · exact h
      · refine .evolves (evolves_formStop _) ⟨h.1.same_store rfl rfl rfl, h.2.1, fun i => ?_⟩
        simp only [planEntry, State.withTables_tables, vget_vset]
        split
        · exact (entryInRange_of_planEntry? he).1
        · exact h.2.2 i
    · exact h
  putSize s _ args h := by
    unfold putSize
    simp only
    split_ifs
    · exact h
    · exact h
    · exact .evolves (evolves_formStop _) (h.same rfl rfl rfl rfl)
  putFollow s _ args h := by
    unfold putFollow
    split
    · change WholeAndClear (if _ then _ else _)
      split
      · exact .evolves (evolves_applyPeriod _ _) (h.same rfl rfl rfl rfl)
      · exact h.same rfl rfl rfl rfl
    · exact h
  putPickup s _ args h := h.same rfl rfl rfl rfl
  putSound s _ args h := h.same rfl rfl rfl rfl

theorem wholeAndClear_stepInvariant : StepInvariant WholeAndClear where
  toTableRows := wholeAndClear_tableRows
  toListRows := wholeAndClear_listRows
  toFaultRows := .of_free (fun _ _ h => h.same rfl rfl rfl rfl) (fun s => .evolves (evolves_reformStops s))
    (fun s d => .evolves (evolves_purge s d)) (fun s => .evolves (evolves_stopIfPlaying s))
    (fun s => .evolves (evolves_clearRegistration s)) (fun s a => .evolves (evolves_postAlert s a))
    (fun s => .evolves (evolves_waitingSwitches s)) fun s d => .evolves (evolves_resumeDivision s d)
  toRelayRows := .of_free fun _ _ ht h => h.same (by rw [ht]) (by rw [ht]) (by rw [ht]) (by rw [ht])
  beginReset s c _ := ⟨storeWhole_of_reset rfl rfl, locksClear_of_reset rfl rfl⟩
  endReset s straps four _ h := by
    refine ⟨h.1.same_store rfl rfl rfl, h.2.1, fun i => ?_⟩
    have : planEntry (endReset s straps four) i = PlanEntry.reset four := vget_replicate _ i
    rw [this]
    exact (by decide : (1 : ListNo) ≠ 0)
  quiet h hs := hs.same (by rw [h.1]) (by rw [h.1]) (by rw [h.1]) (by rw [h.1])
  play h := .evolves h.evolves

/-- Settles O59: a visit moves a step from chain to chain in one change, and a list is locked or in the command, never both. -/
theorem everyStepKeepsTheStoreWhole : Obligations.EveryStepKeepsTheStoreWhole := by
  unfold Obligations.EveryStepKeepsTheStoreWhole
  exact fun s t h ht => wholeAndClear_stepInvariant.keeps h ht

end Machine

end Sys2Proof
end

section
/-! PROOF. Play and clock stay in agreement (O57). A sound state is idle, playing or at rest at a stop point; each of these three is kept
by the operations of the states in which they are called. -/

namespace Sys2Proof

namespace Machine

set_option Elab.async false

/-! ### The three kinds of sound state -/

/-- An entry is in play and the clock is not STOPPED. -/
structure Begun (s : State) : Prop where
  mode : s.follower.mode ≠ .off
  pending : s.follower.pendingMode ≠ some .off ∧ s.follower.pendingMode ≠ some .steady
  clock : s.clock.state ≠ .stopped
  current : s.follower.current ≠ none

/-- Play is RUNNING or GAP. -/
structure InPlay (s : State) : Prop extends Begun s where
  play : playing s = true
  check : s.follower.checkHeld = false

/-- Play is WAITING, HOLDING or ENDING, the clock HELD at the stop point. -/
structure AtStop (s : State) : Prop extends Begun s where
  play : s.follower.play = .waiting ∨ s.follower.play = .holding ∨ s.follower.play = .ending
  held : s.clock.state = .held
  stop : s.follower.stop.map StopPoint.pos = some s.clock.x0
  check : s.follower.checkHeld = true → s.follower.play = .waiting

/-- Play is IDLE, the clock STOPPED, and the follower holds nothing. -/
structure Idle (s : State) : Prop where
  pending : s.follower.pendingMode ≠ some .off ∧ s.follower.pendingMode ≠ some .steady
  clock : s.clock.state = .stopped
  play : s.follower.play = .idle
  current : s.follower.current = none
  next : s.follower.next = none
  stop : s.follower.stop = none
  window : s.follower.window = []
  locks : s.follower.lockSet = []
  finish : s.follower.finish = .none
  check : s.follower.checkHeld = false

/-- Some entry is in play, and play and clock agree. -/
def Active (s : State) : Prop := InPlay s ∨ AtStop s

/-- Play and clock agree. -/
def PlaySound (s : State) : Prop := Idle s ∨ Active s

theorem playing_iff {s : State} : playing s = true ↔ s.follower.play = .running ∨ s.follower.play = .gap := by
  simp [playing]

theorem InPlay.not_idle {s : State} (h : InPlay s) : s.follower.play ≠ .idle := by
  rcases playing_iff.mp h.play with hp | hp <;> simp [hp]

theorem AtStop.not_idle {s : State} (h : AtStop s) : s.follower.play ≠ .idle := by
  rcases h.play with hp | hp | hp <;> simp [hp]

theorem AtStop.not_playing {s : State} (h : AtStop s) : playing s = false := by
  rcases h.play with hp | hp | hp <;> simp [playing, hp]

theorem Active.begun {s : State} (h : Active s) : Begun s := h.elim (·.toBegun) (·.toBegun)

theorem Active.not_idle {s : State} (h : Active s) : s.follower.play ≠ .idle := h.elim (·.not_idle) (·.not_idle)

theorem Active.inPlay {s : State} (h : Active s) (hp : playing s = true) : InPlay s :=
  h.resolve_right fun hs => by rw [hs.not_playing] at hp; cases hp

theorem Active.atStop {s : State} (h : Active s)
    (hp : s.follower.play = .waiting ∨ s.follower.play = .holding ∨ s.follower.play = .ending) : AtStop s :=
  h.resolve_left fun hs => by rcases playing_iff.mp hs.play with h' | h' <;> simp [h'] at hp

theorem PlaySound.active {s : State} (h : PlaySound s) (hp : s.follower.play ≠ .idle) : Active s :=
  h.resolve_left fun hi => hp hi.play

theorem PlaySound.idle {s : State} (h : PlaySound s) (hp : s.follower.play = .idle) : Idle s :=
  h.resolve_right fun ha => ha.not_idle hp

/-- The three kinds of sound state are what the parts of the invariant say together. -/
theorem playSound_iff (s : State) : PlaySound s ↔
    ModeSound s ∧ ClockMatchesPlay s ∧ IdleHoldsNothing s ∧ PlayHasCurrent s ∧ ChecksOnlyInWaiting s := by
  constructor
  · rintro (h | h | h)
    · exact ⟨⟨fun _ => h.play, h.pending⟩, ⟨by simp [h.play, h.clock], by simp [h.play]⟩,
        fun _ => ⟨h.current, h.next, h.stop, h.window, h.locks, h.finish⟩, fun hp => absurd h.play hp,
        fun hc => by rw [h.check] at hc; cases hc⟩
    · have hp := h.not_idle
      refine ⟨⟨fun hm => absurd hm h.mode, h.pending⟩, ⟨by simp [hp, h.clock], fun hw => ?_⟩, fun hi => absurd hi hp,
        fun _ => h.current, fun hc => by rw [h.check] at hc; cases hc⟩
      rcases playing_iff.mp h.play with h' | h' <;> simp [h'] at hw
    · have hp := h.not_idle
      exact ⟨⟨fun hm => absurd hm h.mode, h.pending⟩, ⟨by simp [hp, h.clock], fun _ => ⟨h.held, h.stop⟩⟩,
        fun hi => absurd hi hp, fun _ => h.current, h.check⟩
  · rintro ⟨⟨hmode, hpend⟩, ⟨hclock, hheld⟩, hidle, hcur, hcheck⟩
    by_cases hp : s.follower.play = .idle
    · obtain ⟨h1, h2, h3, h4, h5, h6⟩ := hidle hp
      refine .inl ⟨hpend, hclock.mp hp, hp, h1, h2, h3, h4, h5, h6, Bool.eq_false_iff.mpr fun hc => ?_⟩
      rw [hcheck hc] at hp; cases hp
    · have begun : Begun s := ⟨fun hm => hp (hmode hm), hpend, fun hc => hp (hclock.mpr hc), hcur hp⟩
      by_cases hplay : playing s = true
      · refine .inr (.inl ⟨begun, hplay, Bool.eq_false_iff.mpr fun hc => ?_⟩)
        rw [playing, hcheck hc] at hplay; cases hplay
      · have hstop : s.follower.play = .waiting ∨ s.follower.play = .holding ∨ s.follower.play = .ending := by
          rw [playing_iff] at hplay
          cases hs : s.follower.play <;> simp_all
        exact .inr (.inr ⟨begun, hstop, (hheld hstop).1, (hheld hstop).2, hcheck⟩)

/-! ### Changes that do not touch play -/

/-- What play and clock agree on is the same in `t` as in `s`. -/
structure SamePlay (s t : State) : Prop where
  mode : t.follower.mode = s.follower.mode
  pending : t.follower.pendingMode = s.follower.pendingMode
  state : t.clock.state = s.clock.state
  x0 : t.clock.x0 = s.clock.x0
  play : t.follower.play = s.follower.play
  current : t.follower.current = s.follower.current
  stop : t.follower.stop = s.follower.stop
  check : t.follower.checkHeld = s.follower.checkHeld
  nothing : Idle s → t.follower.next = none ∧ t.follower.window = [] ∧ t.follower.lockSet = [] ∧ t.follower.finish = .none

theorem SamePlay.of_same {s t : State} (hf : t.follower = s.follower) (hs : t.clock.state = s.clock.state)
    (hx : t.clock.x0 = s.clock.x0) : SamePlay s t where
  mode := by rw [hf]
  pending := by rw [hf]
  state := hs
  x0 := hx
  play := by rw [hf]
  current := by rw [hf]
  stop := by rw [hf]
  check := by rw [hf]
  nothing h := by rw [hf]; exact ⟨h.next, h.window, h.locks, h.finish⟩

/-- Follower and clock stand. -/
theorem SamePlay.of_frame {s t : State} (hf : t.follower = s.follower) (hc : t.clock = s.clock) : SamePlay s t :=
  .of_same hf (by rw [hc]) (by rw [hc])

theorem SamePlay.begun {s t : State} (h : SamePlay s t) (hs : Begun s) : Begun t :=
  ⟨by rw [h.mode]; exact hs.mode, by rw [h.pending]; exact hs.pending, by rw [h.state]; exact hs.clock,
    by rw [h.current]; exact hs.current⟩

theorem SamePlay.playing_eq {s t : State} (h : SamePlay s t) : playing t = playing s := by simp [playing, h.play]

theorem SamePlay.inPlay {s t : State} (h : SamePlay s t) (hs : InPlay s) : InPlay t :=
  ⟨h.begun hs.toBegun, h.playing_eq.trans hs.play, h.check.trans hs.check⟩

theorem SamePlay.atStop {s t : State} (h : SamePlay s t) (hs : AtStop s) : AtStop t :=
  ⟨h.begun hs.toBegun, by rw [h.play]; exact hs.play, h.state.trans hs.held, by rw [h.stop, h.x0]; exact hs.stop,
    by rw [h.check, h.play]; exact hs.check⟩

theorem SamePlay.idle {s t : State} (h : SamePlay s t) (hs : Idle s) : Idle t :=
  have ⟨hn, hw, hl, hf⟩ := h.nothing hs
  ⟨by rw [h.pending]; exact hs.pending, h.state.trans hs.clock, h.play.trans hs.play, h.current.trans hs.current, hn,
    h.stop.trans hs.stop, hw, hl, hf, h.check.trans hs.check⟩

theorem SamePlay.active {s t : State} (h : SamePlay s t) : Active s → Active t := Or.imp h.inPlay h.atStop

theorem SamePlay.sound {s t : State} (h : SamePlay s t) : PlaySound s → PlaySound t := Or.imp h.idle h.active

/-- In play the clock may be moved. -/
theorem InPlay.withClock {s t : State} (h : InPlay s) (hf : t.follower = s.follower) (hc : t.clock.state ≠ .stopped) : InPlay t :=
  ⟨⟨by rw [hf]; exact h.mode, by rw [hf]; exact h.pending, hc, by rw [hf]; exact h.current⟩, by simpa [playing, hf] using h.play,
    by rw [hf]; exact h.check⟩

/-- A follower in play whose stop point, origin, points or timers change. -/
theorem InPlay.withFollower {s t : State} (h : InPlay s) (hc : t.clock = s.clock) (hm : t.follower.mode = s.follower.mode)
    (hn : t.follower.pendingMode = s.follower.pendingMode) (hp : t.follower.play = s.follower.play)
    (hcur : t.follower.current = s.follower.current) (hch : t.follower.checkHeld = s.follower.checkHeld) : InPlay t :=
  ⟨⟨by rw [hm]; exact h.mode, by rw [hn]; exact h.pending, by rw [hc]; exact h.clock, by rw [hcur]; exact h.current⟩,
    by simpa [playing, hp] using h.play, hch.trans h.check⟩

theorem active_formStop {s : State} (h : Active s) : Active (formStop s) := by
  unfold formStop
  split
  · rename_i hp
    exact .inl ((h.inPlay hp).withFollower rfl rfl rfl rfl rfl rfl)
  · exact h

theorem inPlay_formStop {s : State} (h : InPlay s) : InPlay (formStop s) := by
  unfold formStop
  rw [if_pos h.play]
  exact h.withFollower rfl rfl rfl rfl rfl rfl

theorem sound_formStop {s : State} (h : PlaySound s) : PlaySound (formStop s) := by
  rcases h with h | h
  · have : playing s = false := by simp [playing, h.play]
    unfold formStop
    rw [if_neg (by simp [this])]
    exact .inl h
  · exact .inr (active_formStop h)

theorem samePlay_postAlert (s : State) (a : Alert) : SamePlay s (postAlert s a) := .of_frame (by simp) (by simp)

theorem samePlay_waitingSwitches (s : State) : SamePlay s (waitingSwitches s) := .of_frame (by simp) (by simp)

theorem samePlay_announce (found : Conf) (s : State) : SamePlay s (announce found s) := by
  unfold announce
  split
  · exact .of_frame rfl rfl
  · exact samePlay_postAlert s _

/-! ### The clock -/

theorem raiseHighest_state (s : State) (x : Pos) (t : PartTime) : (raiseHighest s x t).clock.state = s.clock.state := by
  simp only [raiseHighest]; split <;> simp

theorem raiseHighest_x0 (s : State) (x : Pos) (t : PartTime) : (raiseHighest s x t).clock.x0 = s.clock.x0 := by
  simp only [raiseHighest]; split <;> simp

theorem applyPendingTempo_state (s : State) (x : Pos) : (applyPendingTempo s x).clock.state = s.clock.state := by
  unfold applyPendingTempo; split <;> rfl

theorem applyPendingTempo_x0 {s : State} {x : Pos} (h : x = s.clock.x0) : (applyPendingTempo s x).clock.x0 = s.clock.x0 := by
  unfold applyPendingTempo; split
  · exact h
  · rfl

theorem riseTo_state (s : State) (x : Pos) (t : PartTime) (now : Pos) : (riseTo s x t now).clock.state = s.clock.state := by
  simp only [riseTo]
  split
  · exact raiseHighest_state s x t
  · rw [applyPendingTempo_state, raiseHighest_state]

theorem riseTo_x0 {s : State} {x : Pos} {t : PartTime} {now : Pos} (h : now = s.clock.x0) :
    (riseTo s x t now).clock.x0 = s.clock.x0 := by
  simp only [riseTo]
  split
  · exact raiseHighest_x0 s x t
  · rw [applyPendingTempo_x0 (by rw [raiseHighest_x0]; exact h), raiseHighest_x0]

theorem reanchor_not_stopped (s : State) (ta : PartTime) (xa : Pos) (p : Nat) : (reanchor s ta xa p).clock.state ≠ .stopped := by
  simp only [reanchor, riseTo_state]
  rcases installAnchor_state s ta xa p with h | h <;> simp [h]

/-- At a stop point a re-anchor now leaves the clock HELD there. -/
theorem samePlay_reanchor_atStop {s : State} (h : AtStop s) (p : Nat) : SamePlay s (reanchor s s.partTime s.clock.x0 p) := by
  obtain ⟨st, hst, hpos⟩ := Option.map_eq_some_iff.mp h.stop
  have installed : installAnchor s s.partTime s.clock.x0 p = s.withClock { s.clock with
      t0 := s.partTime, x0 := s.clock.x0, period := p, state := .held } := by
    unfold installAnchor
    simp only [hst]
    rw [if_pos (by rw [hpos]; exact (rawAt_now { s.clock with t0 := s.partTime, x0 := s.clock.x0, period := p }).ge), hpos]
  refine .of_same (by simp) ?_ ?_
  · simp only [reanchor, riseTo_state, installed]; exact h.held.symm
  · simp only [reanchor, installed]
    exact riseTo_x0 (position_of_not_moving (by simp))

/-- A re-anchor at the present time and position. -/
theorem active_reanchor_now {s : State} (h : Active s) (p : Nat) : Active (reanchor s s.partTime (position s) p) := by
  rcases h with h | h
  · exact .inl (h.withClock (by simp) (reanchor_not_stopped s _ _ p))
  · rw [position_of_not_moving (by simp [h.held])]
    exact .inr ((samePlay_reanchor_atStop h p).atStop h)

theorem inPlay_reanchor {s : State} (h : InPlay s) (ta : PartTime) (xa : Pos) (p : Nat) : InPlay (reanchor s ta xa p) :=
  h.withClock (by simp) (reanchor_not_stopped s ta xa p)

theorem active_changePeriod {s : State} (h : Active s) (p : Nat) : Active (changePeriod s p) := by
  unfold changePeriod
  split
  · rename_i hs; exact absurd hs h.begun.clock
  · exact active_reanchor_now h p

theorem samePlay_dropPending (s : State) : SamePlay s (s.withClock { s.clock with pendingTempo := none }) := .of_same rfl rfl rfl

theorem active_applyEntryTempo {s : State} (h : Active s) (i : EntryNo) : Active (applyEntryTempo s i) := by
  unfold applyEntryTempo
  split
  · exact active_changePeriod ((samePlay_dropPending s).active h) _
  · exact h

theorem inPlay_resumeClock {s : State} (h : InPlay s) : InPlay (resumeClock s) := by
  unfold resumeClock
  split
  · exact inPlay_reanchor h _ _ _
  · exact h

theorem active_correct {s : State} (h : Active s) (t : PartTime) (e : Int) (both : Bool) : Active (correct s t e both) := by
  simp only [correct]
  split
  · exact h
  · rename_i hheld
    have := active_reanchor_now h (correctedPeriod s.tables.follow s.clock.period e both)
    rwa [position_of_not_moving (by simp [hheld])] at this
  · rename_i hmoving
    have hp : InPlay s := h.resolve_right fun hs => by rw [hs.held] at hmoving; cases hmoving
    split
    · exact .inl (inPlay_reanchor hp _ _ _)
    · exact .inl (inPlay_reanchor hp _ _ _)

/-! ### Starting an entry -/

theorem samePlay_makeCurrent {s : State} (h : Active s) (i : EntryNo) : Active (makeCurrent s i) := by
  have begun : Begun (makeCurrent s i) := ⟨h.begun.mode, h.begun.pending, h.begun.clock, by simp [makeCurrent, formLocks]⟩
  rcases h with h | h
  · exact .inl ⟨begun, h.play, rfl⟩
  · exact .inr ⟨begun, h.play, h.held, h.stop, nofun⟩

theorem releasePassed_inPlay {s : State} (h : InPlay s) : InPlay (releasePassed s) := by
  unfold releasePassed
  split
  · split
    · exact h.withFollower rfl rfl rfl rfl rfl rfl
    · exact h
  · exact h

theorem active_releasePassed {s : State} (h : Active s) : Active (releasePassed s) := by
  rcases h with h | h
  · exact .inl (releasePassed_inPlay h)
  · have : releasePassed s = s := by unfold releasePassed; rw [h.not_playing]
    rw [this]; exact .inr h

theorem inPlay_beginAt {s : State} (h : Begun s) (o x : Pos) : InPlay (beginAt s o x) := by
  refine inPlay_formStop (releasePassed_inPlay ⟨⟨h.mode, h.pending, h.clock, h.current⟩, ?_, rfl⟩)
  simp only [playing, State.withSched_follower, State.withFollower_follower]
  split <;> rfl

theorem inPlay_beginOrgan {s : State} (h : Begun s) (i : EntryNo) (o x : Pos) (m : Manner) : InPlay (beginOrgan s i o x m) :=
  (samePlay_waitingSwitches _).inPlay (inPlay_resumeClock ((samePlay_postAlert _ _).inPlay (inPlay_beginAt h o x)))

theorem atStop_enterWaiting {s : State} (h : Begun s) (i : EntryNo) (x : Pos) : AtStop (enterWaiting s i x) :=
  ⟨⟨h.mode, h.pending, nofun, h.current⟩, .inl rfl, rfl, rfl, fun _ => rfl⟩

theorem active_enterEntry {s : State} (h : Active s) (i : EntryNo) (x : Pos) : Active (enterEntry s i x) := by
  have entered : Active (applyEntryTempo (makeCurrent s i) i) := active_applyEntryTempo (samePlay_makeCurrent h i) i
  simp only [enterEntry]
  split
  · exact .inl (inPlay_beginOrgan entered.begun _ _ _ _)
  · exact .inr ((samePlay_waitingSwitches _).atStop (atStop_enterWaiting entered.begun _ _))

theorem atStop_enterHolding {s : State} (h : Begun s) (hc : s.clock.state = .held) (hcheck : s.follower.checkHeld = false) :
    AtStop (enterHolding s s.clock.x0) := by
  refine (samePlay_postAlert _ _).atStop ⟨⟨h.mode, h.pending, h.clock, h.current⟩, .inr (.inl rfl), hc, rfl, fun hh => ?_⟩
  rw [State.withFollower_follower, hcheck] at hh
  cases hh

theorem atStop_enterEnding {s : State} (h : Begun s) (hc : s.clock.state = .held) : AtStop (enterEnding s s.clock.x0) :=
  ⟨⟨h.mode, h.pending, h.clock, h.current⟩, .inr (.inr rfl), hc, rfl, nofun⟩

theorem active_settleFor (n : Nat) {s : State} (h : Active s) : Active (settleFor n s) := by
  induction n generalizing s with
  | zero => exact h
  | succ n ih =>
    unfold settleFor
    split
    · rename_i hc hp _
      have hplay := h.inPlay hp
      split
      · split
        · exact ih (active_enterEntry h _ _)
        · exact .inr (atStop_enterHolding h.begun hc hplay.check)
      · exact .inr (atStop_enterEnding h.begun hc)
      · exact ih (active_enterEntry h _ _)
      · exact .inr (atStop_enterEnding h.begun hc)
    · exact h

theorem active_settle {s : State} (h : Active s) : Active (settle s) := active_settleFor 65 h

theorem Idle.not_playing {s : State} (h : Idle s) : playing s = false := by simp [playing, h.play]

theorem sound_applyPeriod {s : State} (h : PlaySound s) (p : Nat) : PlaySound (applyPeriod s p) := by
  rcases h with h | h
  · have stands : changePeriod s (clampPeriod s p) = s.withClock { s.clock with t0 := s.partTime, period := clampPeriod s p } := by
      unfold changePeriod; rw [h.clock]
    have hidle : Idle (changePeriod s (clampPeriod s p)) := by
      rw [stands]; exact SamePlay.idle (s := s) (.of_same rfl rfl rfl) h
    unfold applyPeriod
    rw [settle_of_not_playing hidle.not_playing]
    exact .inl hidle
  · exact .inr (active_settle (active_changePeriod h _))

theorem sound_startPlay {s : State} (h : PlaySound s) (request : Option Nat) (hm : s.follower.mode ≠ .off) :
    PlaySound (startPlay s request) := by
  have hpend := ((playSound_iff s).mp h).1.2
  have begun : ∀ u : State, u.follower = startFollower s → u.clock.state = .held → Begun (makeSwitch u 0) := fun u hf hc =>
    ⟨by simp [hf, startFollower, hm], by simpa [hf, startFollower] using hpend, by simp [hc], by simp [hf, startFollower]⟩
  simp only [startPlay]
  split
  · exact .inr (active_settle (.inl (inPlay_beginOrgan (begun _ rfl rfl) _ _ _ _)))
  · exact .inr (.inr (atStop_enterWaiting (begun _ rfl rfl) _ _))

/-! ### Finishing and confidence -/

theorem active_finishPlay {s : State} (h : Active s) : Active (finishPlay s) := by
  unfold finishPlay
  split
  · exact h
  · exact h
  · rename_i hw
    have hs := h.atStop (.inl hw)
    exact .inr (atStop_enterEnding (s := s.withFollower { s.follower with finish := .pending }) ⟨hs.mode, hs.pending, hs.clock, hs.current⟩
      hs.held)
  · split
    · exact h
    · refine active_formStop ?_
      rcases h with h | h
      · exact .inl (h.withFollower rfl rfl rfl rfl rfl rfl)
      · exact .inr ⟨⟨h.mode, h.pending, h.clock, h.current⟩, h.play, h.held, h.stop, h.check⟩

theorem sound_finishPlay {s : State} (h : PlaySound s) : PlaySound (finishPlay s) := by
  rcases h with h | h
  · unfold finishPlay
    rw [h.play]
    exact .inl h
  · exact .inr (active_finishPlay h)

/-- Counter, confidence and run, results and held onsets are no matter of play. -/
theorem samePlay_withFollower {s : State} {f : Follower} (h : f = { s.follower with
    counter := f.counter, conf := f.conf, run := f.run, heldOnsets := f.heldOnsets, timer := f.timer, released := f.released
    pointsCurrent := f.pointsCurrent, pointsNext := f.pointsNext }) : SamePlay s (s.withFollower f) := by
  refine ⟨?_, ?_, rfl, rfl, ?_, ?_, ?_, ?_, fun hs => ⟨?_, ?_, ?_, ?_⟩⟩ <;> rw [State.withFollower_follower, h]
  · exact hs.next
  · exact hs.window
  · exact hs.locks
  · exact hs.finish

theorem active_confRise {s : State} (h : Active s) (n : Nat) : Active (confRise s n) := by
  have set : ∀ u : State, ∀ k c r, Active u → Active (setConf u k c r) := fun u k c r hu => (samePlay_withFollower rfl).active hu
  have warned : ∀ a b, Active (warnRise s a b) := fun a b => by
    unfold warnRise
    split
    · exact (samePlay_postAlert s _).active h
    · exact h
  unfold confRise
  split
  · exact (samePlay_withFollower rfl).active h
  · simp only
    split_ifs
    · exact active_finishPlay (set _ _ _ _ (warned _ _))
    · exact set _ _ _ _ (warned _ _)
    · exact set _ _ _ _ (warned _ _)

theorem samePlay_confMatch (s : State) : SamePlay s (confMatch s) := by
  unfold confMatch
  split <;> exact samePlay_withFollower rfl

theorem samePlay_writeMatch (s : State) (p : Point) (e : Int) : SamePlay s (writeMatch s p e) := .of_frame (by simp) (by simp)

theorem samePlay_recoverConf (s : State) : SamePlay s (recoverConf s) := samePlay_withFollower rfl

/-! ### The window list -/

/-- In every state but IDLE the window list is no matter of play. -/
theorem active_withWindow {s : State} {w : List Point} (h : Active s) : Active (s.withFollower { s.follower with window := w }) := by
  rcases h with h | h
  · exact .inl (h.withFollower rfl rfl rfl rfl rfl rfl)
  · exact .inr ⟨⟨h.mode, h.pending, h.clock, h.current⟩, h.play, h.held, h.stop, h.check⟩

theorem samePlay_walkPast (s : State) (p : Point) : SamePlay s (walkPast s p) := by
  simp only [walkPast]
  split
  · exact samePlay_withFollower rfl
  · split
    · exact samePlay_withFollower rfl
    · exact .of_frame rfl rfl

theorem active_openPoint {s : State} (h : Active s) (p : Point) : Active (openPoint s p) := by
  have walked := (samePlay_walkPast s p).active h
  simp only [openPoint]
  split
  · exact walked
  · exact active_withWindow walked

theorem active_openReachedFor (n : Nat) {s : State} (h : Active s) : Active (openReachedFor n s) := by
  induction n generalizing s with
  | zero => exact h
  | succ n ih =>
    unfold openReachedFor
    split
    · exact ih (active_openPoint h _)
    · exact h

theorem active_misses (n : Nat) {s : State} (h : Active s) : Active (misses n s) := by
  induction n generalizing s with
  | zero => exact h
  | succ n ih => exact ih (active_confRise h 8)

theorem active_closePassed {s : State} (h : Active s) : Active (closePassed s) := active_misses _ (active_withWindow h)

/-! ### Matching, syncs, waits and holds -/

theorem inPlay_syncClock {s : State} (h : InPlay s) (t : PartTime) (x : Pos) : InPlay (syncClock s t x) := by
  unfold syncClock
  split
  · exact h
  · exact inPlay_reanchor h _ _ _

theorem active_hardSync {s : State} (h : InPlay s) (t : PartTime) (p : Point) (e : Int) : Active (hardSync s t p e) := by
  have counted : InPlay (confMatch (writeMatch s p e)) := (samePlay_confMatch _).inPlay ((samePlay_writeMatch s p e).inPlay h)
  have tail : ∀ u, InPlay u → Active (announce s.follower.conf
      (openReached (closePassed (clearBelow (walkPast (syncClock u t p.pos) p) p.pos)))) := fun u hu =>
    (samePlay_announce _ _).active (active_openReachedFor _ (active_closePassed (active_withWindow
      ((samePlay_walkPast _ p).active (.inl (inPlay_syncClock hu t _))))))
  simp only [hardSync]
  split
  · exact tail _ ((samePlay_recoverConf _).inPlay counted)
  · exact tail _ counted

theorem samePlay_dropHold (s : State) : SamePlay s (dropHold s) := samePlay_withFollower rfl

/-- A hold ends in RUNNING. -/
theorem inPlay_runOn {s : State} (h : Begun s) (hc : s.follower.checkHeld = false) : InPlay (formStop (withPlay (dropHold s) .running)) :=
  inPlay_formStop ⟨⟨h.mode, h.pending, h.clock, h.current⟩, rfl, hc⟩

theorem AtStop.no_check {s : State} (h : AtStop s) (hp : s.follower.play = .holding) : s.follower.checkHeld = false :=
  Bool.eq_false_iff.mpr fun hc => by rw [h.check hc] at hp; cases hp

/-- An onset is matched in every state but IDLE and ENDING; after the release of a stop point play runs. -/
theorem inPlay_releaseStop {s : State} (h : Active s) (he : s.follower.play ≠ .ending) : InPlay (releaseStop s) := by
  unfold releaseStop
  split
  · rename_i hp
    have hs := h.atStop (.inr (.inl hp))
    exact inPlay_runOn hs.toBegun (hs.no_check hp)
  · exact (samePlay_waitingSwitches _).inPlay ((samePlay_postAlert _ _).inPlay (inPlay_beginAt h.begun _ _))
  · rename_i hhold hwait
    refine h.resolve_right fun hs => ?_
    obtain ⟨i, hi⟩ := Option.ne_none_iff_exists'.mp hs.current
    rcases hs.play with hp | hp | hp
    · exact hwait i hp hi
    · exact hhold hp
    · exact he hp

theorem active_correctMatch {s : State} (h : Active s) (he : s.follower.play ≠ .ending) (t : PartTime) (p : Point) (e : Int) :
    Active (correctMatch s t p e) := by
  unfold correctMatch
  split
  · exact active_correct h t e true
  · exact active_correct h t e false
  · split
    · exact active_withWindow (.inl ((samePlay_recoverConf _).inPlay (inPlay_syncClock (inPlay_releaseStop h he) _ _)))
    · exact h

theorem active_matchPoint {s : State} (h : Active s) (he : s.follower.play ≠ .ending) (t : PartTime) (p : Point) :
    Active (matchPoint s t p) := by
  have counted := fun e => SamePlay.active (samePlay_confMatch _) ((samePlay_writeMatch s p e).active h)
  have notEnding : ∀ e, (confMatch (writeMatch s p e)).follower.play ≠ .ending := fun e => by
    rw [(samePlay_confMatch _).play, (samePlay_writeMatch s p e).play]; exact he
  have matched := active_correctMatch (counted (p.pos - onsetPosition s t)) (notEnding _) t p (p.pos - onsetPosition s t)
  simp only [matchPoint]
  split
  · exact active_settle ((samePlay_announce _ _).active (active_openReachedFor _ (active_closePassed (active_withWindow matched))))
  · exact active_settle ((samePlay_announce _ _).active (active_withWindow matched))

theorem active_matchOnset {s : State} (h : Active s) (he : s.follower.play ≠ .ending) (o : Onset) : Active (matchOnset s o) := by
  unfold matchOnset
  split
  · exact active_matchPoint h he _ _
  · exact (samePlay_announce _ _).active (active_confRise h 1)

theorem active_endWait {s : State} (h : Active s) (m : Manner) : Active (endWait s m) := by
  unfold endWait
  split
  · exact active_settle (.inl (inPlay_beginOrgan h.begun _ _ _ m))
  · exact h

theorem active_syncWait {s : State} (h : Active s) (o : Onset) : Active (syncWait s o) := by
  unfold syncWait
  split
  · split
    · simp only
      split
      · exact active_settle ((samePlay_waitingSwitches _).active ((samePlay_postAlert _ _).active
          (active_hardSync (inPlay_beginAt h.begun _ _) _ _ _)))
      · exact h
    · exact (samePlay_withFollower rfl).active h
  · exact h

theorem active_releaseHold {s : State} (h : Active s) (hp : s.follower.play = .holding) : Active (releaseHold s) := by
  have hs := h.atStop (.inr (.inl hp))
  have dropped := (samePlay_dropHold s).active h
  simp only [releaseHold]
  split
  · split
    · exact active_settle (active_enterEntry dropped _ _)
    · exact .inr (atStop_enterEnding dropped.begun hs.held)
  · exact active_settle (.inl (inPlay_resumeClock (inPlay_runOn hs.toBegun (hs.no_check hp))))

theorem active_syncIntoNext {s : State} (h : Active s) (o : Onset) (i : EntryNo) (p : Point) : Active (syncIntoNext s o i p) := by
  have entered := active_applyEntryTempo (samePlay_makeCurrent ((samePlay_dropHold s).active h) i) i
  have begun : InPlay (postPhrase (beginAt (applyEntryTempo (makeCurrent (dropHold s) i) i) (onsetOrigin s s.clock.x0) s.clock.x0)
      i .synced) := (samePlay_postAlert _ _).inPlay (inPlay_beginAt entered.begun _ _)
  have running : ∀ u, InPlay u → InPlay (withPlay u .running) := fun u hu =>
    ⟨⟨hu.mode, hu.pending, hu.clock, hu.current⟩, rfl, hu.check⟩
  exact active_settle ((samePlay_waitingSwitches _).active (active_hardSync (running _ begun) _ _ _))

theorem active_syncHold {s : State} (h : Active s) (hp : s.follower.play = .holding) (o : Onset) : Active (syncHold s o) := by
  have hs := h.atStop (.inr (.inl hp))
  have freed : Active (finishPlay (releaseHold s)) := active_finishPlay (active_releaseHold h hp)
  unfold syncHold
  simp only
  split
  · exact active_settle (active_hardSync (inPlay_runOn hs.toBegun (hs.no_check hp)) _ _ _)
  · split
    · split
      · split
        · exact active_syncIntoNext h o _ _
        · exact freed
      · exact (samePlay_withFollower rfl).active h
    · exact freed

theorem sound_takeOnset {s : State} (h : PlaySound s) (o : Onset) : PlaySound (takeOnset s o) := by
  unfold takeOnset
  split
  · exact h
  · exact h
  · rename_i hp
    have ha := h.active (by simp [hp])
    split
    · exact .inr (active_syncWait ha o)
    · exact .inr (active_matchOnset ha (by simp [hp]) o)
  · rename_i hp
    have ha := h.active (by simp [hp])
    split
    · exact .inr (active_syncHold ha hp o)
    · exact .inr (active_matchOnset ha (by simp [hp]) o)
  · rename_i hp; exact .inr (active_matchOnset (h.active (by simp [hp])) (by simp [hp]) o)
  · rename_i hp; exact .inr (active_matchOnset (h.active (by simp [hp])) (by simp [hp]) o)

theorem sound_releaseHold {s : State} (h : PlaySound s) (hp : s.follower.play = .holding) : PlaySound (releaseHold s) :=
  .inr (active_releaseHold (h.active (by simp [hp])) hp)

theorem sound_deliverOnset {s : State} (h : PlaySound s) (o : Onset) : PlaySound (deliverOnset s o) := by
  unfold deliverOnset
  split
  · exact sound_takeOnset h o
  · exact h

theorem sound_deliverCutoff {s : State} (h : PlaySound s) (c : Cutoff) : PlaySound (deliverCutoff s c) := by
  unfold deliverCutoff
  split
  · rename_i hp
    rw [Bool.and_eq_true, decide_eq_true_eq] at hp
    exact sound_releaseHold h hp.2
  · exact h

/-! ### Level frames, held work, stops and modes -/

theorem samePlay_withDetector (s : State) (d : Detector) : SamePlay s (s.withDetector d) := .of_frame rfl rfl

theorem samePlay_mapChannels (s : State) (f : Fin 4 → Channel → Channel) : SamePlay s (mapChannels s f) := .of_frame rfl rfl

theorem sound_handleFrame {s : State} (h : PlaySound s) : PlaySound (handleFrame s) := by
  have closed : PlaySound (closeGather s) := by
    unfold closeGather
    split
    · split
      · exact sound_deliverOnset ((samePlay_withDetector s _).sound h) _
      · exact h
    · exact h
  have tested : ∀ u, PlaySound u → PlaySound (testFiring u) := fun u => (SamePlay.of_frame (by simp) (by simp)).sound
  have cut : ∀ u, PlaySound u → PlaySound (updateCutoff u) := fun u hu => by
    unfold updateCutoff
    split
    · exact (samePlay_withDetector u _).sound hu
    · split
      · exact hu
      · exact (samePlay_withDetector u _).sound hu
      · split
        · exact sound_deliverCutoff ((samePlay_withDetector u _).sound hu) _
        · exact hu
  exact cut _ (tested _ ((samePlay_mapChannels _ _).sound closed))

theorem sound_takeLevels {s : State} (h : PlaySound s) (q : Byte) (levels : List Nat) : PlaySound (takeLevels s q levels) := by
  have entered : ∀ a, PlaySound (enterFrame s a q levels) := fun a => (SamePlay.of_frame (by simp) (by simp)).sound h
  unfold takeLevels
  split
  · split
    · split
      · exact h
      · exact sound_handleFrame (entered _)
    · exact sound_handleFrame (entered _)
  · exact sound_handleFrame ((SamePlay.of_frame (by simp) (by simp)).sound h)

theorem active_formLocks {s : State} (h : Active s) : Active (formLocks s) := by
  rcases h with h | h
  · exact .inl (h.withFollower rfl rfl rfl rfl rfl rfl)
  · exact .inr ⟨⟨h.mode, h.pending, h.clock, h.current⟩, h.play, h.held, h.stop, h.check⟩

theorem active_checkWait {s : State} (h : Active s) : Active (checkWait s) := by
  unfold checkWait
  split
  · rename_i hp _ _
    have hs := h.atStop (.inl hp)
    split
    · split
      · exact .inr ⟨⟨hs.mode, hs.pending, hs.clock, hs.current⟩, hs.play, hs.held, hs.stop, nofun⟩
      · exact active_settle (.inl (inPlay_beginOrgan h.begun _ _ _ _))
    · exact h
  · exact h

theorem sound_takeHeld {s : State} (h : PlaySound s) : PlaySound (takeHeld s) := by
  have emptied : PlaySound (s.withFollower { s.follower with heldOnsets := [] }) := (samePlay_withFollower rfl).sound h
  unfold takeHeld
  split
  · exact List.foldlRecOn _ _ emptied fun u hu o _ => sound_takeOnset hu o
  · exact emptied

theorem sound_joinLists {s : State} (h : PlaySound s) : PlaySound (joinLists s) := by
  unfold joinLists
  split
  · exact h
  · rename_i hp
    have ha := h.active hp
    refine (samePlay_waitingSwitches _).sound (sound_takeHeld ?_)
    split
    · exact h
    · exact .inr (active_checkWait (active_formStop (active_releasePassed (active_formLocks ha))))

/-- Every end of play leaves the follower holding nothing and the clock STOPPED. -/
theorem idle_stopped {s t : State} (h : PlaySound s) (zero : Bool) (hf : t.follower = (idleFollower (stopClock s zero)).follower)
    (hc : t.clock = (stopClock s zero).clock) : Idle t := by
  have hpend := ((playSound_iff s).mp h).1.2
  refine ⟨?_, ?_, ?_, ?_, ?_, ?_, ?_, ?_, ?_, ?_⟩
  · rw [hf]; simpa [idleFollower] using hpend
  · rw [hc]; rfl
  all_goals rw [hf]; rfl

theorem idle_stopIfPlaying {s : State} (h : PlaySound s) : Idle (stopIfPlaying s) := by
  unfold stopIfPlaying
  split
  · rename_i hp; exact h.idle hp
  · exact idle_stopped h true (by simp [stopPlay, discardWalks]) (by simp [stopPlay, discardWalks])

theorem idle_endPlay {s : State} (h : PlaySound s) : Idle (endPlay s) :=
  idle_stopped h false (by simp [endPlay, discardWalks]) (by simp [endPlay, discardWalks])

theorem samePlay_clearRegistration (s : State) : SamePlay s (clearRegistration s) := .of_frame (by simp) (by simp)

theorem sound_enterMode {s : State} (h : PlaySound s) {m : Mode} (hm : m ≠ .off) : PlaySound (enterMode s m) := by
  have set : PlaySound (s.withFollower { s.follower with mode := m, pendingMode := none }) := by
    rcases h with h | h | h
    · exact .inl ⟨by simp, h.clock, h.play, h.current, h.next, h.stop, h.window, h.locks, h.finish, h.check⟩
    · exact .inr (.inl ⟨⟨hm, by simp, h.clock, h.current⟩, h.play, h.check⟩)
    · exact .inr (.inr ⟨⟨hm, by simp, h.clock, h.current⟩, h.play, h.held, h.stop, h.check⟩)
  refine sound_formStop ?_
  split
  · exact set
  · exact (SamePlay.of_frame (by simp) (by simp)).sound set

theorem sound_enterSteady {s : State} (h : PlaySound s) : PlaySound (enterSteady s) := by
  have emptied : PlaySound (s.withFollower { s.follower with window := [], heldOnsets := [] }) := by
    rcases h with h | h
    · exact .inl ⟨h.pending, h.clock, h.play, h.current, h.next, h.stop, rfl, h.locks, h.finish, h.check⟩
    · exact .inr ((samePlay_withFollower (s := s.withFollower { s.follower with window := [] }) rfl).active (active_withWindow h))
  have entered : PlaySound (enterMode (s.withFollower { s.follower with window := [], heldOnsets := [] }) .steady) :=
    sound_enterMode emptied (by decide)
  simp only [enterSteady]
  split
  · rename_i hp
    refine .inr (active_endWait (entered.active ?_) _)
    simp [enterMode, formStop, playing, hp]
    split <;> simp
  · exact entered

theorem sound_withPending {s : State} (h : PlaySound s) {m : Option Mode} (hm : m ≠ some .off ∧ m ≠ some .steady) :
    PlaySound (s.withFollower { s.follower with pendingMode := m }) := by
  rcases h with h | h | h
  · exact .inl ⟨hm, h.clock, h.play, h.current, h.next, h.stop, h.window, h.locks, h.finish, h.check⟩
  · exact .inr (.inl ⟨⟨h.mode, hm, h.clock, h.current⟩, h.play, h.check⟩)
  · exact .inr (.inr ⟨⟨h.mode, hm, h.clock, h.current⟩, h.play, h.held, h.stop, h.check⟩)

theorem sound_requestMode {s : State} (h : PlaySound s) (m : Mode) : PlaySound (requestMode s m) := by
  have orWait : ∀ k : Mode, k ≠ .off → k ≠ .steady → PlaySound (enterOrWait s k) := fun k h1 h2 => by
    unfold enterOrWait
    split
    · exact sound_enterMode h h1
    · exact sound_withPending h ⟨by simpa using h1, by simpa using h2⟩
  unfold requestMode
  split
  · exact sound_withPending h (by simp)
  · split
    · have hi := (samePlay_clearRegistration _).idle (idle_stopIfPlaying h)
      exact .inl ⟨⟨nofun, nofun⟩, hi.clock, hi.play, hi.current, hi.next, hi.stop, hi.window, hi.locks, hi.finish, hi.check⟩
    · exact sound_enterSteady h
    · exact orWait _ (by decide) (by decide)
    · exact orWait _ (by decide) (by decide)
    · rename_i hoff _ _ _ _
      exact sound_enterMode h fun hm => hoff hm

theorem sound_applyPendingMode {s : State} (h : PlaySound s) : PlaySound (applyPendingMode s) := by
  unfold applyPendingMode
  split
  · rename_i m hm
    refine sound_enterMode h fun he => ?_
    exact (((playSound_iff s).mp h).1.2).1 (by rw [hm, he])
  · exact h

theorem sound_restartPlay {s : State} (h : PlaySound s) : PlaySound (restartPlay s) := by
  have stopped := (samePlay_clearRegistration _).idle (idle_stopIfPlaying h)
  have still : Idle (stopClock (clearRegistration (stopIfPlaying s)) true) := by
    refine ⟨?_, rfl, ?_, ?_, ?_, ?_, ?_, ?_, ?_, ?_⟩
    · simpa using stopped.pending
    · simpa using stopped.play
    · simpa using stopped.current
    · simpa using stopped.next
    · simpa using stopped.stop
    · simpa using stopped.window
    · simpa using stopped.locks
    · simpa using stopped.finish
    · simpa using stopped.check
  have rested : ∀ u, PlaySound u → PlaySound (restartDetector u) := fun u => (SamePlay.of_frame (by simp) (by simp)).sound
  exact sound_applyPendingMode (rested _ ((samePlay_announce _ _).sound ((samePlay_recoverConf _).sound (.inl still))))

/-! ### The rows -/

theorem InPlay.of_moving {s : State} (h : PlaySound s) (hm : s.clock.state = .moving) : InPlay s := by
  rcases h with h | h | h
  · rw [h.clock] at hm; cases hm
  · exact h
  · rw [h.held] at hm; cases hm

theorem PlaySound.active_of_playing {s : State} (h : PlaySound s) (hp : playing s = true) : Active s :=
  h.active fun hi => by rcases playing_iff.mp hp with h' | h' <;> rw [hi] at h' <;> cases h'

theorem sound_crossBoundary {s : State} (h : InPlay s) : InPlay (crossBoundary s) := by
  refine h.withClock (by simp) ?_
  simp only [crossBoundary]
  split
  · exact reanchor_not_stopped _ _ _ _
  · rw [raiseHighest_state]; exact h.clock

theorem sound_reachStop {s : State} (h : PlaySound s) (hd : stopDue s = true) : PlaySound (reachStop s) := by
  unfold stopDue at hd
  split at hd
  · rename_i hm hst
    have hp := InPlay.of_moving h hm
    unfold reachStop
    rw [hst]
    refine .inr (active_settle (.inl (hp.withClock (by simp) ?_)))
    simp only [holdClock, riseTo_state]
    exact nofun
  · cases hd

theorem sound_passPhraseEnd {s : State} (h : PlaySound s) : PlaySound (passPhraseEnd s) := by
  unfold passPhraseEnd
  split
  · rename_i hd
    unfold phraseEndDue at hd
    split at hd
    · rename_i hp _ _ _
      exact .inr (active_settle (active_enterEntry (h.active_of_playing hp) _ _))
    · cases hd
  · exact h

theorem active_of_engageDue {s : State} {e : Engaged} (h : PlaySound s) (hd : engageDue s = some e) : Active s := by
  unfold engageDue at hd
  split at hd
  · split at hd
    · rename_i hp
      rw [Bool.or_eq_true, decide_eq_true_eq] at hp
      rcases hp with hp | hp
      · exact h.active_of_playing hp
      · exact h.active (by simp [hp])
    · cases hd
  · cases hd

theorem sound_engageNext {s : State} (h : PlaySound s) : PlaySound (engageNext s) := by
  unfold engageNext
  split
  · rename_i e hd
    refine .inr ((samePlay_waitingSwitches _).active (active_formStop (active_formLocks ?_)))
    rcases active_of_engageDue h hd with h | h
    · exact .inl (h.withFollower rfl rfl rfl rfl rfl rfl)
    · exact .inr ⟨⟨h.mode, h.pending, h.clock, h.current⟩, h.play, h.held, h.stop, h.check⟩
  · exact h

theorem sound_openDue {s : State} (h : PlaySound s) : PlaySound (openDue s) := by
  unfold openDue
  split
  · rename_i hd
    unfold pointOpenDue at hd
    split at hd
    · exact .inr (active_openPoint (h.active_of_playing (by assumption)) _)
    · cases hd
  · exact h

theorem sound_closeDue {s : State} (h : PlaySound s) : PlaySound (closeDue s) := by
  unfold closeDue
  split
  · rename_i hd
    unfold pointCloseDue at hd
    split at hd
    · exact .inr ((samePlay_announce _ _).active (active_confRise (active_withWindow (h.active_of_playing (by assumption))) 8))
    · cases hd
  · exact h

theorem sound_expireLeadIn {s : State} (h : PlaySound s) (hp : s.follower.play = .waiting) : PlaySound (expireLeadIn s) := by
  have ended := active_endWait (h.active (by simp [hp])) .fellBack
  simp only [expireLeadIn]
  split
  · exact .inr (active_settle ((samePlay_announce _ _).active (active_confRise ended 8)))
  · exact .inr ended

theorem sound_releasePlay {s : State} (h : PlaySound s) : PlaySound (releasePlay s) := by
  unfold releasePlay
  split
  · rename_i hp; exact sound_releaseHold h hp
  · rename_i hp; exact .inr (active_endWait (h.active (by simp [hp])) _)
  · exact h

theorem samePlay_pressNow (s : State) (d : Division) : SamePlay s (pressNow s d) := by
  unfold pressNow; split <;> exact .of_frame (by simp) (by simp)

theorem samePlay_releaseNow (s : State) (d : Division) : SamePlay s (releaseNow s d) := by
  unfold releaseNow; split <;> exact .of_frame (by simp) (by simp)

/-- Every change of play keeps play and clock in agreement. -/
theorem PlayStep.sound {s t : State} (hstep : PlayStep s t) (h : PlaySound s) : PlaySound t := by
  have frame : ∀ {u : State}, u.follower = s.follower → u.clock = s.clock → PlaySound u := fun hf hc => (SamePlay.of_frame hf hc).sound h
  cases hstep with
  | mode m => exact sound_requestMode h m
  | start request hm _ _ => exact sound_startPlay h request hm
  | finish => exact sound_finishPlay h
  | halt => exact .inl (idle_stopIfPlaying h)
  | release => exact sound_releasePlay h
  | tempoNow p => exact sound_applyPeriod ((samePlay_dropPending s).sound h) p
  | tempoNext p => exact SamePlay.sound (s := s) (.of_same rfl rfl rfl) h
  | registration k => exact frame (by simp) (by simp)
  | rate n => exact SamePlay.sound (s := s) (.of_same rfl rfl rfl) h
  | restart => exact sound_restartPlay h
  | levels q levels => exact sound_takeLevels h q levels
  | stale => exact frame (by simp) (by simp)
  | boost => exact frame (by simp) (by simp)
  | boundary hd =>
    rw [boundaryDue, Bool.and_eq_true, decide_eq_true_eq] at hd
    exact .inr (active_settle (.inl (sound_crossBoundary (.of_moving h hd.1))))
  | renewal hd =>
    rw [renewalDue, Bool.and_eq_true, decide_eq_true_eq] at hd
    have hp := InPlay.of_moving h hd.1
    exact .inr (.inl (hp.withClock rfl hp.clock))
  | stop hd => exact sound_reachStop h hd
  | gapOrigin hd =>
    rw [gapOriginDue, Bool.and_eq_true, decide_eq_true_eq] at hd
    have hp := (h.active (by simp [hd.1])).inPlay (playing_iff.mpr (.inr hd.1))
    exact .inr (.inl ⟨⟨hp.mode, hp.pending, hp.clock, hp.current⟩, rfl, hp.check⟩)
  | phraseEnd => exact sound_passPhraseEnd h
  | engage => exact sound_engageNext h
  | pointOpen => exact sound_openDue h
  | pointClose => exact sound_closeDue h
  | leadIn hd =>
    rw [leadInDue, Bool.and_eq_true, decide_eq_true_eq] at hd
    exact sound_expireLeadIn h hd.1
  | holdTimer hd =>
    rw [holdTimerDue, Bool.and_eq_true, decide_eq_true_eq] at hd
    exact sound_releaseHold h hd.1
  | ending => exact .inl (idle_endPlay h)
  | pendingMode => exact sound_applyPendingMode h
  | place w => exact frame (by simp) (by simp)
  | catchUp d => exact frame (by simp) (by simp)
  | press d => exact (samePlay_pressNow s d).sound h
  | releaseIssue d => exact (samePlay_releaseNow s d).sound h
  | keyUp d k => exact frame rfl rfl

theorem idle_of_reset {s : State} (hf : s.follower = Follower.reset) (hc : s.clock = Clock.reset) : Idle s := by
  constructor <;> simp [hf, hc, Follower.reset, Clock.reset]

theorem playSound_stepInvariant : StepInvariant PlaySound where
  toTableRows := .of_free (fun s _ h => SamePlay.sound (s := s) (.of_frame rfl rfl) h)
    (fun _ => (SamePlay.of_frame (by simp) (by simp)).sound)
    (fun _ => sound_formStop) fun _ p h => sound_applyPeriod h p
  toListRows := .of_free (fun s _ _ h => SamePlay.sound (s := s) (.of_frame rfl rfl) h)
    (fun s _ h => SamePlay.sound (s := s) (.of_frame rfl rfl) h)
    fun _ => sound_joinLists
  toFaultRows := .of_free (fun s _ h => SamePlay.sound (s := s) (.of_frame rfl rfl) h)
    (fun _ => (SamePlay.of_frame (by simp) (by simp)).sound)
    (fun _ _ => (SamePlay.of_frame (by simp) (by simp)).sound) (fun _ h => .inl (idle_stopIfPlaying h))
    (fun s => (samePlay_clearRegistration s).sound) (fun s a => (samePlay_postAlert s a).sound)
    (fun s => (samePlay_waitingSwitches s).sound) fun _ _ => (SamePlay.of_frame (by simp) (by simp)).sound
  toRelayRows := .of_free fun _ _ ht => (SamePlay.of_frame (by rw [ht]) (by rw [ht])).sound
  beginReset s c _ := .inl (idle_of_reset rfl rfl)
  endReset s straps four _ h := SamePlay.sound (s := s) (.of_frame rfl rfl) h
  quiet h := (SamePlay.of_frame (by rw [h.1]) (by rw [h.1])).sound
  play h := h.sound

/-- A predicate of the follower that play keeps, and a full reset meets, is an invariant. -/
theorem StepInvariant.of_follower {P : State → Prop} (evolves : ∀ {s t}, Evolves s t → P s → P t)
    (same : ∀ {s t : State}, t.follower = s.follower → P s → P t) (reset : ∀ s : State, s.follower = Follower.reset → P s) :
    StepInvariant P where
  toTableRows := .of_free (fun _ _ => same rfl) (fun s => evolves (evolves_reformStops s)) (fun s => evolves (evolves_formStop s))
    fun s p => evolves (evolves_applyPeriod s p)
  toListRows := .of_free (fun _ _ _ => same rfl) (fun _ _ => same rfl) fun s => evolves (evolves_joinLists s)
  toFaultRows := .of_free (fun _ _ => same rfl) (fun s => evolves (evolves_reformStops s)) (fun s d => evolves (evolves_purge s d))
    (fun s => evolves (evolves_stopIfPlaying s)) (fun s => evolves (evolves_clearRegistration s))
    (fun s a => evolves (evolves_postAlert s a)) (fun s => evolves (evolves_waitingSwitches s))
    fun s d => evolves (evolves_resumeDivision s d)
  toRelayRows := .of_free fun _ _ ht => same (by rw [ht])
  beginReset s c _ := reset _ rfl
  endReset s _ _ _ := same rfl
  quiet h := same (by rw [h.1])
  play h := evolves h.evolves

theorem confidence_stepInvariant : StepInvariant ConfidenceSound :=
  .of_follower (fun he => he.conf) (fun he h => by unfold ConfidenceSound at *; rwa [he]) fun _ => confidenceSound_of_reset

theorem window_stepInvariant : StepInvariant WindowOrdered :=
  .of_follower (fun he => he.window) (fun he h => by unfold WindowOrdered at *; rwa [he]) fun _ => windowOrdered_of_reset

/-- Settles O57: confidence and window list are invariants by themselves, and the rest is that the state is idle, in play or at a stop
point. -/
theorem everyStepKeepsPlayAndClockTogether : Obligations.EveryStepKeepsPlayAndClockTogether := by
  unfold Obligations.EveryStepKeepsPlayAndClockTogether
  intro inv s t h ht
  obtain ⟨hconf, hmode, hclock, hidle, hcur, hwindow, hcheck⟩ := h
  have hplay := playSound_stepInvariant.keeps ((playSound_iff s).mpr ⟨hmode, hclock, hidle, hcur, hcheck⟩) ht
  obtain ⟨hmode', hclock', hidle', hcur', hcheck'⟩ := (playSound_iff t).mp hplay
  exact ⟨confidence_stepInvariant.keeps hconf ht, hmode', hclock', hidle', hcur', window_stepInvariant.keeps hwindow ht, hcheck'⟩

end Machine

end Sys2Proof
end

section
/-! PROOF. The requests of the tables (O4, O6, O8 to O11): how a row answers a request taken, and what each request stores. -/

namespace Sys2Proof

namespace Machine

set_option Elab.async false

/-! ### A request taken by its row -/

section
variable {s : State} {tag code : Byte} {args : List Byte} {row : Instr} {act : State → Byte → List Byte → Answer}

/-- The row of a request that does not mark the alerts-lost flag answers what carries the request out. -/
theorem exec_of_taking (h : Taking s tag code args) (hx : exec row s = .next (take s row act noMark))
    (hr : requestRow (tag :: code :: args) = row) :
    exec row s = .next (answer (act (withoutHead s) tag args) tag code false) := by
  rw [hx, take_of_taking h row act noMark hr, noMark]

theorem exec_done (h : Taking s tag code args) (hx : exec row s = .next (take s row act noMark))
    (hr : requestRow (tag :: code :: args) = row) {t : State} {data : List Byte} (ha : act (withoutHead s) tag args = done t data) :
    exec row s = .next (replied t tag code .done data) := by
  rw [exec_of_taking h hx hr, ha, answer_done]

theorem exec_refused (h : Taking s tag code args) (hx : exec row s = .next (take s row act noMark))
    (hr : requestRow (tag :: code :: args) = row) {r : Result} (ha : act (withoutHead s) tag args = refuse (withoutHead s) r) :
    exec row s = .next (refused s tag code r) := by
  rw [exec_of_taking h hx hr, ha, answer_refuse]

end

@[simp] theorem byte_of_toNat (b : Byte) : byte b.toNat = b := by simp [byte]

theorem flatMap_out8 {α : Type} (l : List α) (f : α → Nat) : l.flatMap (fun a => out8 (f a)) = l.map fun a => byte (f a) := by
  induction l with
  | nil => rfl
  | cons a l ih => rw [List.flatMap_cons, ih]; rfl

/-! ### The stop table -/

theorem putStop_num (s : State) (tag : Byte) (n : Fin 48) (d : Division) (l0 l1 b0 b1 : Byte) :
    putStop s tag [byte n.val, byte d.num, l0, l1, b0, b1] =
      (let e : StopEntry := { division := d, speechLead := min (word l0 l1) 20000, bleed := min (word b0 b1) 25000 }
       done (reformStops (s.withTables { s.tables with stops := vset s.tables.stops n e })) (outStopEntry n.val e)) := by
  simp [putStop, wordAt, word]

theorem putStop_outside (s : State) (tag : Byte) {n d : Byte} (rest : List Byte) (h : 48 ≤ n.toNat ∨ 4 ≤ d.toNat) :
    putStop s tag (n :: d :: rest) = refuse s .range := by
  rcases h with h | h
  · simp [putStop, stopNo?_none h]
  · simp [putStop, Division.ofNum?_none h]

/-- Settles O4: each request by the bytes that name stop and division. -/
theorem stopPutStoresTheEntryClamped : Obligations.StopPutStoresTheEntryClamped := by
  unfold Obligations.StopPutStoresTheEntryClamped
  intro s tag
  refine ⟨fun n d l0 l1 b0 b1 h => ?stored, fun n d l0 l1 b0 b1 h hout => ?putRefused, fun n h => ?answered, fun n h hn => ?getRefused⟩
  case stored => exact exec_done h (act := putStop) rfl rfl (putStop_num _ tag n d l0 l1 b0 b1)
  case putRefused => exact exec_refused h (act := putStop) rfl rfl (putStop_outside _ tag _ hout)
  case answered => exact exec_done h (act := getStop) rfl rfl (by simp [getStop, outStopEntry])
  case getRefused => exact exec_refused h (act := getStop) rfl rfl (by simp [getStop, stopNo?_none hn])

/-! ### Registration sets -/

theorem setNo?_some {k : Nat} (h : k < 16) : setNo? k = some ⟨k, h⟩ := dif_pos h

theorem setNo?_none {k : Nat} (h : 16 ≤ k) : setNo? k = none := dif_neg (by omega)

theorem outSet_eq (k : SetNo) (b : BitVec 48) :
    outSet k b = byte k.val :: byte (membersOf b).length :: (membersOf b).map byte := by
  exact congrArg (fun l => byte k.val :: byte (membersOf b).length :: l) (flatMap_out8 (membersOf b) id)

theorem requestRow_regPut (tag k count : Byte) {stops : List Byte} (h : count.toNat = stops.length) :
    requestRow (tag :: 5 :: k :: count :: stops) = .regPut := by
  have hfits : Req.fits .regPut (k :: count :: stops) = true := by simp [Req.fits, h]; omega
  simp [requestRow, readRequest, Req.ofCode?, hfits]

/-- Settles O6: the list of stops as a set, each bit a stop listed. -/
theorem regPutReplacesTheSet : Obligations.RegPutReplacesTheSet := by
  unfold Obligations.RegPutReplacesTheSet
  refine ⟨fun s tag k count stops hcount h => ⟨fun hk hall => ?stored, fun hout => ?putRefused⟩,
    fun s tag k h => ⟨fun hk => ?answered, fun hk => ?getRefused⟩⟩
  case stored =>
    have inRange : ((stops.map BitVec.toNat).all fun n => decide (n < 48)) = true := by simpa using hall
    refine ⟨bitsOf 48 (stops.map BitVec.toNat), fun n => ?_, ?_⟩
    · by_cases hn : n < 48
      · exact bitsOf_getLsbD _ hn
      · rw [BitVec.getLsbD_of_ge _ _ (Nat.not_lt.mp hn)]
        simp only [List.contains_eq_mem, List.mem_map, eq_comm (a := false), decide_eq_false_iff_not]
        rintro ⟨b, hb, rfl⟩
        exact hn (hall b hb)
    · refine exec_done h (act := putSet) rfl (requestRow_regPut tag k count hcount) ?_
      simp only [putSet, byteAt_cons_zero, List.drop_succ_cons, List.drop_zero, setNo?_some hk, inRange, outSet_eq, byte_of_toNat]
      rfl
  case putRefused =>
    refine exec_refused h (act := putSet) rfl (requestRow_regPut tag k count hcount) ?_
    simp only [putSet, byteAt_cons_zero, List.drop_succ_cons, List.drop_zero]
    rcases hout with hk | ⟨n, hn, hlt⟩
    · rw [setNo?_none hk]
    · have outRange : ((stops.map BitVec.toNat).all fun n => decide (n < 48)) = false := by
        rw [List.all_eq_false]
        exact ⟨n.toNat, List.mem_map_of_mem hn, by simpa using hlt⟩
      rw [outRange]
      split <;> first | rfl | contradiction
  case answered =>
    refine exec_done h (act := getSet) rfl rfl ?_
    simp [getSet, setNo?_some hk, outSet_eq]
  case getRefused => exact exec_refused h (act := getSet) rfl rfl (by simp [getSet, setNo?_none hk])

/-! ### The plan -/

theorem entryNo?_some {k : Nat} (h : k < 64) : entryNo? k = some ⟨k, h⟩ := dif_pos h

theorem entryNo?_none {k : Nat} (h : 64 ≤ k) : entryNo? k = none := dif_neg (by omega)

theorem listNo?_some {k : Nat} (h : k < 64) : listNo? k = some ⟨k, h⟩ := dif_pos h

theorem phraseList?_some {k : Nat} (h : k < 64) (h0 : k ≠ 0) : phraseList? k = some ⟨k, h⟩ := by
  have hne : (⟨k, h⟩ : ListNo) ≠ 0 := fun he => h0 (congrArg Fin.val he)
  simp [phraseList?, listNo?_some h, hne]

theorem phraseList?_none {k : Nat} (h : k = 0 ∨ 64 ≤ k) : phraseList? k = none := by
  rcases h with rfl | h
  · rfl
  · simp [phraseList?, listNo?, Nat.not_lt.mpr h]

/-- The set a registration byte names: none is KEEP. -/
theorem setOrNone?_some {k : Nat} (h : k < 16 ∨ k = 255) :
    ∃ r : Option SetNo, setOrNone? k = some r ∧ r.map Fin.val = if k = 255 then none else some k := by
  by_cases hk : k = 255
  · exact ⟨none, by simp [setOrNone?, hk], by simp [hk]⟩
  · have hlt : k < 16 := h.resolve_right hk
    exact ⟨some ⟨k, hlt⟩, by simp [setOrNone?, hk, setNo?_some hlt], by simp [hk]⟩

theorem setOrNone?_none {k : Nat} (h : 16 ≤ k) (hk : k ≠ 255) : setOrNone? k = none := by
  simp [setOrNone?, hk, setNo?_none h]

theorem startKind_ofCode? {k : Nat} (h : k < 3) : ∃ e : StartKind, StartKind.ofCode? k = some e ∧ e.code = k := by
  match k, h with
  | 0, _ => exact ⟨_, rfl, rfl⟩
  | 1, _ => exact ⟨_, rfl, rfl⟩
  | 2, _ => exact ⟨_, rfl, rfl⟩

theorem startKind_ofCode?_none {k : Nat} (h : 3 ≤ k) : StartKind.ofCode? k = none := by
  match k, h with
  | k + 3, _ => rfl

/-- The bytes of a PLAN-PUT name no entry (R37). -/
def PlanOutside (avail : BitVec 4) (l v r k tr mask : Byte) : Prop :=
  l.toNat = 0 ∨ 64 ≤ l.toNat ∨ 8 ≤ v.toNat ∨ (16 ≤ r.toNat ∧ r.toNat ≠ 255) ∨
    3 ≤ k.toNat ∨ tr.toInt < -12 ∨ 12 < tr.toInt ∨ mask.truncate 4 &&& avail = 0

section
variable {avail : BitVec 4} {i l v r k g0 g1 lead hold tr mask mc t0 t1 t2 t3 : Byte}

theorem planEntry?_none (h : PlanOutside avail l v r k tr mask) :
    planEntry? avail [i, l, v, r, k, g0, g1, lead, hold, tr, mask, mc, t0, t1, t2, t3] = none := by
  simp only [planEntry?, byteAt_cons_zero, byteAt_cons_succ, BitVec.ofNat_toNat, BitVec.setWidth_eq]
  split
  · rename_i hl hr hk
    rcases h with h | h | h | h | h | h
    · rw [phraseList?_none (.inl h)] at hl; cases hl
    · rw [phraseList?_none (.inr h)] at hl; cases hl
    · exact dif_neg (by omega)
    · rw [setOrNone?_none h.1 h.2] at hr; cases hr
    · rw [startKind_ofCode?_none h] at hk; cases hk
    all_goals
      by_cases hv : v.toNat < 8
      · exact (dif_pos hv).trans (if_pos (by tauto))
      · exact dif_neg hv
  · rfl

/-- The entry a PLAN-PUT writes: the named fields as given, the others clamped. -/
theorem planEntry?_some (h : ¬PlanOutside avail l v r k tr mask) :
    ∃ e : PlanEntry, planEntry? avail [i, l, v, r, k, g0, g1, lead, hold, tr, mask, mc, t0, t1, t2, t3] = some e ∧
      e.list.val = l.toNat ∧ e.verse.val = v.toNat ∧
      e.registration.map Fin.val = (if r.toNat = 255 then none else some r.toNat) ∧ e.start.code = k.toNat ∧
      e.gap = min (word g0 g1) 384 ∧ e.leadIn = max 1 (min lead.toNat 16) ∧ e.hold = max 1 (min hold.toNat 16) ∧
      e.transposition = tr.toInt ∧ e.mask = mask.truncate 4 ∧
      e.minChannels = max 1 (min mc.toNat (channelsIn (mask.truncate 4 &&& avail))) ∧
      e.tempo = (if long t0 t1 t2 t3 = 0 then none else some (max 30000 (min (long t0 t1 t2 t3) 200000))) := by
  simp only [PlanOutside, not_or, not_and, not_not] at h
  obtain ⟨hl0, hl, hv, hr, hk, hlo, hhi, hmask⟩ := h
  obtain ⟨reg, hreg, hval⟩ := setOrNone?_some (k := r.toNat) (by omega)
  obtain ⟨kind, hkind, hcode⟩ := startKind_ofCode? (Nat.not_le.mp hk)
  have hv : v.toNat < 8 := Nat.not_le.mp hv
  refine ⟨{ list := ⟨l.toNat, Nat.not_le.mp hl⟩, verse := ⟨v.toNat, hv⟩, registration := reg, start := kind
            gap := min (word g0 g1) 384, leadIn := max 1 (min lead.toNat 16), hold := max 1 (min hold.toNat 16)
            transposition := tr.toInt, mask := mask.truncate 4
            minChannels := max 1 (min mc.toNat (channelsIn (mask.truncate 4 &&& avail)))
            tempo := if long t0 t1 t2 t3 = 0 then none else some (max 30000 (min (long t0 t1 t2 t3) 200000)) },
    ?_, rfl, rfl, hval, hcode, rfl, rfl, rfl, rfl, rfl, rfl, rfl⟩
  simp only [planEntry?, byteAt_cons_zero, byteAt_cons_succ, BitVec.ofNat_toNat, BitVec.setWidth_eq,
    phraseList?_some (Nat.not_le.mp hl) hl0, hreg, hkind]
  rw [dif_pos hv, if_neg (by simp only [not_or]; exact ⟨hlo, hhi, hmask⟩)]
  have htempo : (period? (longAt [i, l, v, r, k, g0, g1, lead, hold, tr, mask, mc, t0, t1, t2, t3] 12)).map (clampNat 30000 200000) =
      if long t0 t1 t2 t3 = 0 then none else some (max 30000 (min (long t0 t1 t2 t3) 200000)) := by
    have : longAt [i, l, v, r, k, g0, g1, lead, hold, tr, mask, mc, t0, t1, t2, t3] 12 = long t0 t1 t2 t3 := rfl
    rw [this, period?]
    split <;> rfl
  rw [htempo]
  rfl

end

/-- What stands on the wire for a plan entry as stored. -/
theorem outPlanEntry_eq (i : EntryNo) (e : PlanEntry) :
    outPlanEntry i e = [byte i.val, byte e.list.val, byte e.verse.val, byte ((e.registration.map Fin.val).getD 255), byte e.start.code] ++
      out16 e.gap ++ [byte e.leadIn, byte e.hold, BitVec.ofInt 8 e.transposition, byte e.mask.toNat, byte e.minChannels] ++
      out32 (e.tempo.getD 0) := by
  simp [outPlanEntry, outOpt8]

theorem entryNo?_eq_some {k : Nat} {i : EntryNo} : entryNo? k = some i ↔ i.val = k := by
  unfold entryNo?
  split
  · simp [Fin.ext_iff, eq_comm]
  · simp only [reduceCtorEq, false_iff]; omega

theorem entryInPlay_iff (s : State) (i : EntryNo) : entryInPlay s i = true ↔
    ∃ c, s.follower.current = some c ∧ (i.val = c.val ∨ (s.follower.next.isSome ∧ i.val = c.val + 1)) := by
  unfold entryInPlay engagedIndex
  cases hc : s.follower.current with
  | none => simp
  | some c =>
    cases hn : s.follower.next with
    | none => simp only [Option.some.injEq, exists_eq_left']; simp [Fin.ext_iff, eq_comm]
    | some e => simp only [Option.some.injEq, exists_eq_left']; simp [entryNo?_eq_some, Fin.ext_iff]; rw [eq_comm]

/-- Settles O8: RANGE when no entry can be read, then PLAYING for an entry in play, else the entry read is stored. -/
theorem planPutChecksThenWritesTheEntry : Obligations.PlanPutChecksThenWritesTheEntry := by
  unfold Obligations.PlanPutChecksThenWritesTheEntry
  intro s tag i l v r k g0 g1 lead hold tr mask mc t0 t1 t2 t3 h
  have inRange : ¬(64 ≤ i.toNat ∨ PlanOutside (available s) l v r k tr mask) →
      i.toNat < 64 ∧ ¬PlanOutside (available s) l v r k tr mask := fun hn => by
    rw [not_or] at hn
    exact ⟨Nat.not_le.mp hn.1, hn.2⟩
  refine ⟨fun hout => ?refused, fun hin hplay => ?playing, fun hin hplay hi => ?stored⟩
  case refused =>
    refine exec_refused h (act := putPlan) rfl rfl ?_
    unfold putPlan
    rcases hout with hi | hout
    · rw [byteAt_cons_zero, entryNo?_none hi]
    · have hnone := planEntry?_none (i := i) (g0 := g0) (g1 := g1) (lead := lead) (hold := hold) (mc := mc) (t0 := t0) (t1 := t1)
        (t2 := t2) (t3 := t3) (show PlanOutside (available (withoutHead s)) l v r k tr mask from hout)
      rw [hnone]
      split <;> first | rfl | contradiction
  case playing =>
    obtain ⟨hi, hok⟩ := inRange hin
    obtain ⟨e, he, -⟩ := planEntry?_some (i := i) (g0 := g0) (g1 := g1) (lead := lead) (hold := hold) (mc := mc) (t0 := t0) (t1 := t1)
      (t2 := t2) (t3 := t3) hok
    refine exec_refused h (act := putPlan) rfl rfl ?_
    unfold putPlan
    have he : planEntry? (available (withoutHead s)) _ = some e := he
    rw [byteAt_cons_zero, entryNo?_some hi, he]
    exact if_pos ((entryInPlay_iff (withoutHead s) ⟨i.toNat, hi⟩).mpr hplay)
  case stored =>
    obtain ⟨-, hok⟩ := inRange hin
    obtain ⟨e, he, hl, hv, hr, hk, hg, hlead, hhold, htr, hm, hmc, ht⟩ := planEntry?_some (i := i) (g0 := g0) (g1 := g1) (lead := lead)
      (hold := hold) (mc := mc) (t0 := t0) (t1 := t1) (t2 := t2) (t3 := t3) hok
    refine ⟨e, hl, hv, hr, hk, hg, hlead, hhold, htr, hm, hmc, ht, ?_⟩
    refine exec_done h (act := putPlan) rfl rfl ?_
    have he : planEntry? (available (withoutHead s)) _ = some e := he
    have hnot : ¬entryInPlay (withoutHead s) ⟨i.toNat, hi⟩ = true := fun hp => hplay ((entryInPlay_iff (withoutHead s) _).mp hp)
    unfold putPlan
    rw [byteAt_cons_zero, entryNo?_some hi, he]
    dsimp only
    rw [if_neg hnot, outPlanEntry_eq, hl, hv, hr, hk, htr, hm]
    have hreg : byte ((if r.toNat = 255 then none else some r.toNat).getD 255) = r := by
      split
      · rename_i hr; simp [← hr]
      · simp
    simp only [byte_of_toNat, hreg, BitVec.ofInt_toInt]
    rfl

theorem sizeInPlay_iff (s : State) (n : Nat) : sizeInPlay s n = true ↔
    ∃ c, s.follower.current = some c ∧ (n ≤ c.val ∨ (s.follower.next.isSome ∧ n ≤ c.val + 1)) := by
  unfold sizeInPlay
  cases s.follower.current <;> simp

/-- Settles O9. -/
theorem planGetAndPlanSize : Obligations.PlanGetAndPlanSize := by
  unfold Obligations.PlanGetAndPlanSize
  intro s tag i
  refine ⟨fun h hi => ?entry, fun h hi => ?outside, fun h => ⟨fun hi => ?large, fun hi hcuts => ?cuts, fun hi hcuts => ?stored⟩⟩
  case entry =>
    refine exec_done h (act := getPlan) rfl rfl ?_
    simp only [getPlan, byteAt_cons_zero, entryNo?_some hi, outPlanEntry_eq, byte_of_toNat]
    rfl
  case outside => exact exec_refused h (act := getPlan) rfl rfl (by simp [getPlan, entryNo?_none hi])
  case large => exact exec_refused h (act := putSize) rfl rfl (by simp [putSize, hi])
  case cuts =>
    refine exec_refused h (act := putSize) rfl rfl ?_
    have hp : sizeInPlay (withoutHead s) i.toNat = true := (sizeInPlay_iff (withoutHead s) _).mpr hcuts
    simp [putSize, Nat.not_lt.mpr hi, hp]
  case stored =>
    refine exec_done h (act := putSize) rfl rfl ?_
    have hp : ¬sizeInPlay (withoutHead s) i.toNat = true := fun hp => hcuts ((sizeInPlay_iff (withoutHead s) _).mp hp)
    simp [putSize, Nat.not_lt.mpr hi, hp]

/-! ### The three profiles -/

theorem lostAction_ofCode?_none {k : Nat} (h : 1 < k) : LostAction.ofCode? k = none := by
  match k, h with
  | k + 2, _ => rfl

theorem lostAction_ofCode?_some {k : Nat} (h : k ≤ 1) :
    LostAction.ofCode? k = some (if k = 0 then .coast else .finish) := by
  match k, h with
  | 0, _ => rfl
  | 1, _ => rfl

theorem lostAction_code {b : Byte} (h : b.toNat ≤ 1) : byte (if b.toNat = 0 then LostAction.coast else .finish).code = b := by
  refine (congrArg byte ?_).trans (byte_of_toNat b)
  split
  · rename_i h0; exact h0.symm
  · change 1 = _; omega

theorem follow_fields_of_put {w kp j ki dm p0 p1 p2 p3 q0 q1 q2 q3 wl la : Byte} (hla : la.toNat ≤ 1)
    (hle : max 30000 (min (long p0 p1 p2 p3) 200000) ≤ max 30000 (min (long q0 q1 q2 q3) 200000)) :
    followProfile? [w, kp, j, ki, dm, p0, p1, p2, p3, q0, q1, q2, q3, wl, la] = some
      { w := max 4 (min w.toNat 48), kp := min kp.toNat 16, j := max 1 (min j.toNat 48), ki := min ki.toNat 64
        dmax := max 1 (min dm.toNat 32), pmin := max 30000 (min (long p0 p1 p2 p3) 200000)
        pmax := max 30000 (min (long q0 q1 q2 q3) 200000), warning := max 1 wl.toNat
        lostAction := if la.toNat = 0 then .coast else .finish } := by
  have hwl : min wl.toNat 255 = wl.toNat := Nat.min_eq_left (Nat.le_of_lt_succ wl.isLt)
  have action : LostAction.ofCode? (byteAt [w, kp, j, ki, dm, p0, p1, p2, p3, q0, q1, q2, q3, wl, la] 14) =
      some (if la.toNat = 0 then .coast else .finish) := lostAction_ofCode?_some hla
  unfold followProfile?
  rw [action]
  refine (if_neg (Nat.not_lt.mpr hle)).trans ?_
  simp only [byteAt_cons_zero, byteAt_cons_succ, clampNat, Nat.zero_max, hwl]
  rfl

theorem followProfile?_none {w kp j ki dm p0 p1 p2 p3 q0 q1 q2 q3 wl la : Byte} (h : 1 < la.toNat ∨
    max 30000 (min (long q0 q1 q2 q3) 200000) < max 30000 (min (long p0 p1 p2 p3) 200000)) :
    followProfile? [w, kp, j, ki, dm, p0, p1, p2, p3, q0, q1, q2, q3, wl, la] = none := by
  unfold followProfile?
  rcases h with hla | hlt
  · have action : LostAction.ofCode? (byteAt [w, kp, j, ki, dm, p0, p1, p2, p3, q0, q1, q2, q3, wl, la] 14) = none :=
      lostAction_ofCode?_none hla
    rw [action]
  · split
    · exact if_pos hlt
    · rfl

/-- The period brought into the range of the follow profile by a period change, which happens only when it lies outside (R63). -/
theorem period_brought_into_range (s : State) (h : s.tables.follow.pmin ≤ s.tables.follow.pmax) :
    (if periodOutside s then applyPeriod s s.clock.period else s) =
      if s.clock.period < s.tables.follow.pmin then settle (changePeriod s s.tables.follow.pmin)
      else if s.tables.follow.pmax < s.clock.period then settle (changePeriod s s.tables.follow.pmax) else s := by
  unfold periodOutside applyPeriod clampPeriod clampNat
  by_cases hlo : s.clock.period < s.tables.follow.pmin
  · have : max s.tables.follow.pmin (min s.clock.period s.tables.follow.pmax) = s.tables.follow.pmin := by omega
    simp [hlo, this]
  · by_cases hhi : s.tables.follow.pmax < s.clock.period
    · have : max s.tables.follow.pmin (min s.clock.period s.tables.follow.pmax) = s.tables.follow.pmax := by omega
      simp [hlo, hhi, this]
    · simp [hlo, hhi]

/-- Settles O10: RANGE where no profile can be read, else the profile, with the period change that the clamp asks for. -/
theorem followPutStoresTheProfileClamped : Obligations.FollowPutStoresTheProfileClamped := by
  unfold Obligations.FollowPutStoresTheProfileClamped
  intro s tag
  refine ⟨fun w kp j ki dm p0 p1 p2 p3 q0 q1 q2 q3 wl la h => ⟨fun hout => ?refused, fun hla hle => ?stored⟩, fun h => ?answered⟩
  case refused =>
    refine exec_refused h (act := putFollow) rfl rfl ?_
    rw [putFollow, followProfile?_none hout]
  case stored =>
    refine exec_done h (act := putFollow) rfl rfl ?_
    rw [putFollow, follow_fields_of_put hla hle]
    dsimp only
    rw [period_brought_into_range _ hle]
    simp only [outFollow, out8_eq, lostAction_code hla, State.withTables_tables, State.withTables_clock, withoutHead_keeps]
    rfl
  case answered =>
    refine exec_done h (act := getFollow) rfl rfl ?_
    cases ha : s.tables.follow.lostAction <;> simp [getFollow, outFollow, out8_eq, ha, LostAction.code]

theorem pickupProfile_eq (k th g0 g1 r0 r1 b c0 c1 h0 h1 l0 l1 : Byte) :
    pickupProfile [k, th, g0, g1, r0, r1, b, c0, c1, h0, h1, l0, l1] =
      { span := max 1 (min k.toNat 8), threshold := max 4 (min th.toNat 120), gate := min (word g0 g1) 479
        refractory := max 1000 (min (word r0 r1) 25000), boost := min b.toNat 60, cutoffLevel := min (word c0 c1) 479
        cutoffHold := max 2000 (min (word h0 h1) 50000), latency := min (word l0 l1) 2000 } := by
  simp [pickupProfile, clampNat, wordAt, word]

/-- Settles O11: each profile as stored, and as it stands on the wire. -/
theorem pickupAndSoundProfilesAreClamped : Obligations.PickupAndSoundProfilesAreClamped := by
  unfold Obligations.PickupAndSoundProfilesAreClamped
  intro s tag
  refine ⟨fun k th g0 g1 r0 r1 b c0 c1 h0 h1 l0 l1 h => ?putPickup, fun h => ?getPickup, fun g0 g1 h => ?putSound, fun h => ?getSound⟩
  case putPickup =>
    refine exec_done h (act := Machine.putPickup) rfl rfl ?_
    rw [Machine.putPickup, pickupProfile_eq]
    rfl
  case getPickup => exact exec_done h (act := Machine.getPickup) rfl rfl rfl
  case putSound => exact exec_done h (act := Machine.putSound) rfl rfl (by simp [Machine.putSound, wordAt, word])
  case getSound => exact exec_done h (act := Machine.getSound) rfl rfl rfl

end Machine

end Sys2Proof
end

section
/-! PROOF. The stop image (O7), the structural requests and the reading of the store (O12 to O15): how the fields of a list request are
read, what each request answers before it is taken, and what its taking leaves. -/

namespace Sys2Proof

namespace Machine

set_option Elab.async false

/-! ### The playback stop image -/

theorem withdrawn_stop (s : State) (n : Fin 48) :
    withdrawn s n.val = (s.prot.escalated || latched s (vget s.tables.stops n).division) := by
  have hentry : stopEntry? s n.val = some (vget s.tables.stops n) := Vector.getElem?_eq_getElem n.isLt
  rw [withdrawn, hentry]

theorem formedImage_getLsbD (s : State) (n : Fin 48) : (formedImage s).getLsbD n.val =
    ((activeSet s).getLsbD n.val && !(s.prot.escalated || latched s (vget s.tables.stops n).division)) := by
  rw [formedImage, lessWithdrawn, bitsOf_getLsbD _ n.isLt, ← withdrawn_stop, Bool.eq_iff_iff]
  simp [mem_membersOf]

/-- Settles O7: bit by bit, then the frame of the marking. -/
theorem stopImageIsFormedFromTheActiveSet : Obligations.StopImageIsFormedFromTheActiveSet := by
  unfold Obligations.StopImageIsFormedFromTheActiveSet
  intro s
  refine ⟨fun n => ?bits, fun k hk => ?active, fun hk => ?none_, fun h => ?same, fun h => ?marked⟩
  case bits => rw [reformStops_stopImage, formedImage_getLsbD]
  case active => simp [activeSet, hk]
  case none_ => simp [activeSet, hk]
  case same =>
    rw [reformStops_stopImage] at h
    unfold reformStops
    rw [h]
    exact if_pos rfl
  case marked =>
    rw [reformStops_stopImage] at h ⊢
    exact if_neg h

/-! ### Musical fields -/

theorem Division.ofNum?_some {k : Nat} (h : k < 4) :
    ∃ d, Division.ofNum? k = some d ∧ d.num = k ∧ d.top = if k = 0 then 31 else 60 := by
  match k, h with
  | 0, _ => exact ⟨_, rfl, rfl, rfl⟩
  | 1, _ => exact ⟨_, rfl, rfl, rfl⟩
  | 2, _ => exact ⟨_, rfl, rfl, rfl⟩
  | 3, _ => exact ⟨_, rfl, rfl, rfl⟩

theorem key?_eq_some {d : Division} {n : Nat} {k : Key} : key? d n = some k ↔ k.val = n ∧ n ≤ d.top := by
  have htop : d.top ≤ 60 := by cases d <;> decide
  unfold key?
  split
  · split
    · simp only [Option.some.injEq, Fin.ext_iff]; omega
    · simp [*]
  · simp only [reduceCtorEq, false_iff]; omega

/-- The keys of a run of bytes are read exactly when every byte lies in the division's range. -/
theorem keyRun_iff (d : Division) (bs : List Byte) (ks : List Key) : (bs.mapM fun b => key? d b.toNat) = some ks ↔
    ks.map Fin.val = bs.map BitVec.toNat ∧ ∀ b ∈ bs, b.toNat ≤ d.top := by
  induction bs generalizing ks with
  | nil => cases ks <;> simp
  | cons b bs ih =>
    rw [List.mapM_cons]
    simp only [Option.bind_eq_bind, Option.bind_eq_some_iff, key?_eq_some, ih, Option.pure_def, Option.some.injEq]
    constructor
    · rintro ⟨k, ⟨hk, htop⟩, rest, ⟨hrest, htops⟩, rfl⟩
      exact ⟨by rw [List.map_cons, List.map_cons, hk, hrest], List.forall_mem_cons.mpr ⟨htop, htops⟩⟩
    · rintro ⟨hks, htops⟩
      cases ks with
      | nil => cases hks
      | cons k rest =>
        obtain ⟨hk, hrest⟩ := List.cons_eq_cons.mp hks
        obtain ⟨htop, htops⟩ := List.forall_mem_cons.mp htops
        exact ⟨k, ⟨hk, htop⟩, rest, ⟨hrest, htops⟩, rfl⟩

/-- Bytes in the division's range name keys. -/
theorem exists_keyRun {d : Division} {bs : List Byte} (h : ∀ b ∈ bs, b.toNat ≤ d.top) :
    ∃ ks : List Key, ks.map Fin.val = bs.map BitVec.toNat := by
  have htop : d.top ≤ 60 := by cases d <;> decide
  induction bs with
  | nil => exact ⟨[], rfl⟩
  | cons b bs ih =>
    obtain ⟨hb, hbs⟩ := List.forall_mem_cons.mp h
    obtain ⟨ks, hks⟩ := ih hbs
    exact ⟨⟨b.toNat, by omega⟩ :: ks, by rw [List.map_cons, hks]; rfl⟩

theorem keys?_eq_some {d : Division} {bs : List Byte} {ks : List Key} : keys? d bs = some ks ↔
    bs.length ≤ 6 ∧ bs.Nodup ∧ ks.map Fin.val = bs.map BitVec.toNat ∧ ∀ b ∈ bs, b.toNat ≤ d.top := by
  have hnodup : ks.map Fin.val = bs.map BitVec.toNat → (ks.Nodup ↔ bs.Nodup) := fun h => by
    rw [← List.nodup_map_iff Fin.val_injective, h, List.nodup_map_iff fun _ _ => BitVec.eq_of_toNat_eq]
  unfold keys?
  by_cases hlen : 6 < bs.length
  · rw [if_pos hlen]
    simp only [reduceCtorEq, false_iff]; omega
  rw [if_neg hlen]
  cases hrun : bs.mapM fun b => key? d b.toNat with
  | none =>
    simp only [reduceCtorEq, false_iff]
    rintro ⟨-, -, hks, htop⟩
    rw [(keyRun_iff d bs ks).mpr ⟨hks, htop⟩] at hrun
    cases hrun
  | some found =>
    obtain ⟨hfound, htop⟩ := (keyRun_iff d bs found).mp hrun
    have same : ks.map Fin.val = bs.map BitVec.toNat → found = ks := fun h =>
      List.map_injective_iff.mpr Fin.val_injective (hfound.trans h.symm)
    dsimp only
    constructor
    · intro h
      split at h
      · rename_i hn
        obtain rfl : found = ks := Option.some.inj h
        exact ⟨by omega, (hnodup hfound).mp hn, hfound, htop⟩
      · cases h
    · rintro ⟨-, hn, hks, -⟩
      rw [same hks, if_pos ((hnodup hks).mpr hn)]

theorem musical?_bind (base : Nat) (args : List Byte) : musical? base args =
    (Division.ofNum? (byteAt args (base + 4))).bind fun d =>
      if 32767 < wordAt args base ∨ wordAt args (base + 2) < 1 ∨ 16383 < wordAt args (base + 2) then none
      else (keys? d (args.drop (base + 7 + if (byteAt args (base + 5)).testBit 3 then 1 else 0))).map fun ks =>
        { onset := wordAt args base, duration := wordAt args (base + 2), division := d, keys := ks
          verses := if (byteAt args (base + 5)).testBit 3 then BitVec.ofNat 8 (byteAt args (base + 7)) else 255#8
          expect := (byteAt args (base + 5)).testBit 0, fermata := (byteAt args (base + 5)).testBit 1
          tie := (byteAt args (base + 5)).testBit 2 } := by
  unfold musical?
  cases Division.ofNum? (byteAt args (base + 4)) <;> rfl

/-- The musical fields of an argument run, part by part. -/
theorem musical?_read {head : List Byte} {o0 o1 d0 d1 dv flags count : Byte} {mask keys : List Byte}
    (hhead : head.length = 1 ∨ head.length = 2) (hmask : mask.length = if flags.toNat.testBit 3 then 1 else 0) :
    musical? head.length (head ++ [o0, o1, d0, d1, dv, flags, count] ++ mask ++ keys) =
      (Division.ofNum? dv.toNat).bind fun d =>
        if 32767 < word o0 o1 ∨ word d0 d1 < 1 ∨ 16383 < word d0 d1 then none
        else (keys? d keys).map fun ks =>
          { onset := word o0 o1, duration := word d0 d1, division := d, keys := ks, verses := mask.headD 255#8
            expect := flags.toNat.testBit 0, fermata := flags.toNat.testBit 1, tie := flags.toNat.testBit 2 } := by
  have hmask' : mask = [] ∧ flags.toNat.testBit 3 = false ∨ ∃ m, mask = [m] ∧ flags.toNat.testBit 3 = true := by
    cases hb : flags.toNat.testBit 3
    · rw [hb] at hmask; exact .inl ⟨List.length_eq_zero_iff.mp hmask, rfl⟩
    · rw [hb] at hmask
      obtain ⟨m, hm⟩ := List.length_eq_one_iff.mp hmask
      exact .inr ⟨m, hm, rfl⟩
  have hhead' : (∃ a, head = [a]) ∨ ∃ a b, head = [a, b] :=
    hhead.imp List.length_eq_one_iff.mp List.length_eq_two.mp
  have hflags : byteAt (head ++ [o0, o1, d0, d1, dv, flags, count] ++ mask ++ keys) (head.length + 5) = flags.toNat := by
    rcases hhead' with ⟨a, rfl⟩ | ⟨a, b, rfl⟩ <;> rfl
  rw [musical?_bind, hflags]
  rcases hmask' with ⟨rfl, hb⟩ | ⟨m, rfl, hb⟩
  · rw [hb]
    rcases hhead' with ⟨a, rfl⟩ | ⟨a, b, rfl⟩ <;> rfl
  · have hm : BitVec.ofNat 8 (byteAt (head ++ [o0, o1, d0, d1, dv, flags, count] ++ [m] ++ keys) (head.length + 7)) = m := by
      rcases hhead' with ⟨a, rfl⟩ | ⟨a, b, rfl⟩ <;> exact byte_of_toNat m
    rw [hb, hm]
    rcases hhead' with ⟨a, rfl⟩ | ⟨a, b, rfl⟩ <;> rfl

/-- Settles O13: division by division, through the keys. -/
theorem musicalFieldsAreReadInRange : Obligations.MusicalFieldsAreReadInRange := by
  unfold Obligations.MusicalFieldsAreReadInRange
  intro head o0 o1 d0 d1 dv flags count mask keys hhead hmask
  dsimp only
  rw [musical?_read hhead hmask]
  by_cases hdv : dv.toNat < 4
  · obtain ⟨d, hd, hnum, htop⟩ := Division.ofNum?_some hdv
    rw [hd, Option.bind_some]
    split
    · exact ⟨by simp only [ne_eq, not_true_eq_false, false_iff]; omega, fun _ h => by cases h⟩
    · refine ⟨?_, fun m hm => ?_⟩
      · rw [← htop, Option.ne_none_iff_exists']
        simp only [Option.map_eq_some_iff, keys?_eq_some]
        constructor
        · rintro ⟨-, ks, ⟨hlen, hn, -, hle⟩, -⟩
          exact ⟨by omega, by omega, by omega, hdv, hlen, hn, hle⟩
        · rintro ⟨-, -, -, -, hlen, hn, hle⟩
          obtain ⟨ks, hks⟩ := exists_keyRun hle
          exact ⟨_, ks, ⟨hlen, hn, hks, hle⟩, rfl⟩
      · obtain ⟨ks, hks, rfl⟩ := Option.map_eq_some_iff.mp hm
        exact ⟨rfl, rfl, hnum, (keys?_eq_some.mp hks).2.2.1, rfl, rfl, rfl, rfl⟩
  · rw [Division.ofNum?_none (by omega), Option.bind_none]
    exact ⟨by simp only [ne_eq, not_true_eq_false, false_iff]; omega, fun _ h => by cases h⟩

/-! ### Structural requests (R18 to R20) -/

theorem whenReady_of_ready {s : State} (h : s.ctl.phase = .ready) (a : Answer) : whenReady s a = a := if_pos h

theorem whenReady_of_busy {s : State} (h : s.ctl.phase ≠ .ready) (a : Answer) : whenReady s a = refuse s .busy := if_neg h

theorem requestRow_stepNew {args : List Byte} (h : Req.fits .stepNew args = true) (tag : Byte) :
    requestRow (tag :: 32 :: args) = .stepNew := by
  simp [requestRow, readRequest, Req.ofCode?, h]

theorem requestRow_stepSet {args : List Byte} (h : Req.fits .stepSet args = true) (tag : Byte) :
    requestRow (tag :: 33 :: args) = .stepSet := by
  simp [requestRow, readRequest, Req.ofCode?, h]

section
variable {s : State} {tag : Byte} {args : List Byte}

theorem newStep_refused (h : s.ctl.phase = .ready) :
    (musical? 1 args = none ∨ phraseList? (byteAt args 0) = none → newStep s tag args = refuse s .range) ∧
    ∀ m l, musical? 1 args = some m → phraseList? (byteAt args 0) = some l →
      (listLocked s l = true → newStep s tag args = refuse s .playing) ∧
      (listLocked s l = false → chain s 0 = [] → newStep s tag args = refuse s .emptyPool) := by
  rw [newStep, whenReady_of_ready h]
  refine ⟨fun hnone => ?_, fun m l hm hl => ⟨fun hlock => ?_, fun hlock hfree => ?_⟩⟩
  · rcases hnone with hm | hl
    · rw [hm]; split <;> first | rfl | contradiction
    · rw [hl]
  · rw [hm, hl]; exact if_pos hlock
  · rw [hm, hl]
    exact (if_neg (Bool.eq_false_iff.mp hlock)).trans (by rw [hfree])

theorem setStep_refused (h : s.ctl.phase = .ready) :
    (usedStep? s (wordAt args 0) = none ∨ musical? 2 args = none → setStep s tag args = refuse s .range) ∧
    ∀ n m, usedStep? s (wordAt args 0) = some n → musical? 2 args = some m → listLocked s (stepRec s n).list = true →
      setStep s tag args = refuse s .playing := by
  rw [setStep, whenReady_of_ready h]
  refine ⟨fun hnone => ?_, fun n m hn hm hlock => ?_⟩
  · rcases hnone with hn | hm
    · rw [hn]
    · rw [hm]; split <;> first | rfl | contradiction
  · rw [hn, hm]; exact if_pos hlock

theorem moveStep_refused (h : s.ctl.phase = .ready) :
    (usedStep? s (wordAt args 0) = none ∨ phraseList? (byteAt args 2) = none → moveStep s tag args = refuse s .range) ∧
    ∀ n l, usedStep? s (wordAt args 0) = some n → phraseList? (byteAt args 2) = some l →
      listLocked s (stepRec s n).list = true ∨ listLocked s l = true → moveStep s tag args = refuse s .playing := by
  rw [moveStep, whenReady_of_ready h]
  refine ⟨fun hnone => ?_, fun n l hn hl hlock => ?_⟩
  · rcases hnone with hn | hl
    · rw [hn]
    · rw [hl]; split <;> first | rfl | contradiction
  · rw [hn, hl]; exact if_pos ((Bool.or_eq_true _ _).mpr hlock)

theorem freeStep_refused (h : s.ctl.phase = .ready) :
    (usedStep? s (wordAt args 0) = none → freeStep s tag args = refuse s .range) ∧
    ∀ n, usedStep? s (wordAt args 0) = some n → listLocked s (stepRec s n).list = true →
      freeStep s tag args = refuse s .playing := by
  rw [freeStep, whenReady_of_ready h]
  exact ⟨fun hn => by rw [hn], fun n hn hlock => by rw [hn]; exact if_pos hlock⟩

theorem emptyList_refused (h : s.ctl.phase = .ready) :
    (phraseList? (byteAt args 0) = none → emptyList s tag args = refuse s .range) ∧
    ∀ l, phraseList? (byteAt args 0) = some l → listLocked s l = true → emptyList s tag args = refuse s .playing := by
  rw [emptyList, whenReady_of_ready h]
  exact ⟨fun hl => by rw [hl], fun l hl hlock => by rw [hl]; exact if_pos hlock⟩

theorem setLength_refused (h : s.ctl.phase = .ready) :
    (phraseList? (byteAt args 0) = none ∨ 32768 < wordAt args 1 → setLength s tag args = refuse s .range) ∧
    ∀ l, phraseList? (byteAt args 0) = some l → wordAt args 1 ≤ 32768 → listLocked s l = true →
      setLength s tag args = refuse s .playing := by
  rw [setLength, whenReady_of_ready h]
  refine ⟨fun hout => ?_, fun l hl hle hlock => ?_⟩
  · rcases hout with hl | hlt
    · rw [hl]
    · split
      · exact if_pos hlt
      · rfl
  · rw [hl]
    exact (if_neg (Nat.not_lt.mpr hle)).trans (if_pos hlock)

end

/-- Settles O12: the phase first, then each request's checks in their order. -/
theorem structuralRequestsAreCheckedInOrder : Obligations.StructuralRequestsAreCheckedInOrder := by
  unfold Obligations.StructuralRequestsAreCheckedInOrder
  refine ⟨fun s tag code args h hbusy row hrow hr => ?busy, fun s tag args hready => ?ready⟩
  case busy =>
    have hbusy : (withoutHead s).ctl.phase ≠ .ready := hbusy
    simp only [List.mem_cons, List.not_mem_nil, or_false] at hrow
    rcases hrow with rfl | rfl | rfl | rfl | rfl | rfl
    · exact exec_refused h (act := newStep) rfl hr (whenReady_of_busy hbusy _)
    · exact exec_refused h (act := setStep) rfl hr (whenReady_of_busy hbusy _)
    · exact exec_refused h (act := moveStep) rfl hr (whenReady_of_busy hbusy _)
    · exact exec_refused h (act := freeStep) rfl hr (whenReady_of_busy hbusy _)
    · exact exec_refused h (act := emptyList) rfl hr (whenReady_of_busy hbusy _)
    · exact exec_refused h (act := setLength) rfl hr (whenReady_of_busy hbusy _)
  case ready =>
    have hready : (withoutHead s).ctl.phase = .ready := hready
    refine ⟨fun h hfits m hm l => ?new, fun h hfits => ?set, fun n0 n1 l h => ?move, fun n0 n1 h => ?free, fun l h => ?empty,
      fun l t0 t1 h => ?length⟩
    case new =>
      obtain ⟨hrange, hrest⟩ := newStep_refused (tag := tag) (args := args) hready
      have refuses := fun r => exec_refused (r := r) h (act := newStep) rfl (requestRow_stepNew hfits tag)
      refine ⟨fun hout => refuses _ (hrange (hm ▸ hout)), fun hsome hl hlock => ?_, fun hsome hl hlock hfree => ?_⟩ <;>
        obtain ⟨m, rfl⟩ := Option.isSome_iff_exists.mp hsome
      · exact refuses _ ((hrest m l hm hl).1 hlock)
      · exact refuses _ ((hrest m l hm hl).2 hlock hfree)
    case set =>
      obtain ⟨hrange, hplaying⟩ := setStep_refused (tag := tag) (args := args) hready
      have refuses := fun r => exec_refused (r := r) h (act := setStep) rfl (requestRow_stepSet hfits tag)
      exact ⟨fun hout => refuses _ (hrange hout), fun n m hn hm hlock => refuses _ (hplaying n m hn hm hlock)⟩
    case move =>
      obtain ⟨hrange, hplaying⟩ := moveStep_refused (tag := tag) (args := [n0, n1, l]) hready
      have refuses := fun r => exec_refused (r := r) h (act := moveStep) rfl rfl
      exact ⟨fun hout => refuses _ (hrange (hout.imp_right phraseList?_none)),
        fun n k hn hl hlock => refuses _ (hplaying n k hn hl hlock)⟩
    case free =>
      obtain ⟨hrange, hplaying⟩ := freeStep_refused (tag := tag) (args := [n0, n1]) hready
      have refuses := fun r => exec_refused (r := r) h (act := freeStep) rfl rfl
      exact ⟨fun hout => refuses _ (hrange hout), fun n hn hlock => refuses _ (hplaying n hn hlock)⟩
    case empty =>
      obtain ⟨hrange, hplaying⟩ := emptyList_refused (tag := tag) (args := [l]) hready
      have refuses := fun r => exec_refused (r := r) h (act := emptyList) rfl rfl
      exact ⟨fun hout => refuses _ (hrange (phraseList?_none hout)), fun k hl hlock => refuses _ (hplaying k hl hlock)⟩
    case length =>
      obtain ⟨hrange, hplaying⟩ := setLength_refused (tag := tag) (args := [l, t0, t1]) hready
      have refuses := fun r => exec_refused (r := r) h (act := setLength) rfl rfl
      exact ⟨fun hout => refuses _ (hrange (or_assoc.mpr hout |>.imp_left phraseList?_none)),
        fun k hl hle hlock => refuses _ (hplaying k hl hle hlock)⟩

/-! ### The taking of a command (R25 to R30) -/

theorem exec_handed {s : State} {tag code : Byte} {args : List Byte} {row : Instr} {act : State → Byte → List Byte → Answer}
    (h : Taking s tag code args) (hx : exec row s = .next (take s row act noMark)) (hr : requestRow (tag :: code :: args) = row)
    {t : State} (ha : act (withoutHead s) tag args = handed t) : exec row s = .next t := by
  rw [exec_of_taking h hx hr, ha, answer_handed]

theorem phraseList?_val {l : ListNo} (h : l ≠ 0) : phraseList? (byte l.val).toNat = some l := by
  have hmod : (byte l.val).toNat = l.val := by rw [byte_toNat]; omega
  rw [hmod, phraseList?_some l.isLt fun h0 => h (Fin.ext h0)]

/-- Settles O14: each request's checks passed, the state it hands on is the record filled. -/
theorem structuralRequestsFillTheCommandRecord : Obligations.StructuralRequestsFillTheCommandRecord := by
  unfold Obligations.StructuralRequestsFillTheCommandRecord
  intro s tag hready
  have hready : (withoutHead s).ctl.phase = .ready := hready
  refine ⟨fun args dest m n free h hfits hl hm hlock hfree => ?new, fun args n m h hfits hn hm hlock => ?set,
    fun n0 n1 n l h hn h0 hfrom hto => ?move, fun n0 n1 n h hn hlock => ?free, fun l h h0 hlock => ?empty,
    fun l t0 t1 h h0 hle hlock => ?length⟩
  case new =>
    refine exec_handed h (act := newStep) rfl (requestRow_stepNew hfits tag) ?_
    have hfree' : chain (withoutHead s) 0 = n :: free := hfree
    have hrest : (chain (withoutHead s) 0).erase n = free := by rw [hfree', List.erase_cons_head]
    rw [newStep, whenReady_of_ready hready, hl, hm]
    refine (if_neg (Bool.eq_false_iff.mp hlock)).trans ?_
    rw [hfree']
    dsimp only
    rw [beginNew, unlink, hrest]
    rfl
  case set =>
    refine exec_handed h (act := setStep) rfl (requestRow_stepSet hfits tag) ?_
    have hn : usedStep? (withoutHead s) (wordAt args 0) = some n := hn
    rw [setStep, whenReady_of_ready hready, hn, hm]
    exact if_neg (Bool.eq_false_iff.mp hlock)
  case move =>
    refine exec_handed h (act := moveStep) rfl rfl ?_
    have hn : usedStep? (withoutHead s) (wordAt [n0, n1, byte l.val] 0) = some n := hn
    have hl : phraseList? (byteAt [n0, n1, byte l.val] 2) = some l := phraseList?_val h0
    rw [moveStep, whenReady_of_ready hready, hn, hl]
    exact if_neg (by rw [Bool.or_eq_true, not_or]; exact ⟨Bool.eq_false_iff.mp hfrom, Bool.eq_false_iff.mp hto⟩)
  case free =>
    refine exec_handed h (act := freeStep) rfl rfl ?_
    have hn : usedStep? (withoutHead s) (wordAt [n0, n1] 0) = some n := hn
    rw [freeStep, whenReady_of_ready hready, hn]
    exact if_neg (Bool.eq_false_iff.mp hlock)
  case empty =>
    refine exec_handed h (act := emptyList) rfl rfl ?_
    have hl : phraseList? (byteAt [byte l.val] 0) = some l := phraseList?_val h0
    rw [emptyList, whenReady_of_ready hready, hl]
    refine (if_neg (Bool.eq_false_iff.mp hlock)).trans (congrArg handed ?_)
    unfold beginEmpty
    by_cases hc : chain s l = []
    · have hc' : chain (withoutHead s) l = [] := hc
      rw [if_pos hc, if_pos hc']
      rfl
    · have hc' : chain (withoutHead s) l ≠ [] := hc
      rw [if_neg hc, if_neg hc']
      rfl
  case length =>
    refine exec_handed h (act := setLength) rfl rfl ?_
    have hl : phraseList? (byteAt [byte l.val, t0, t1] 0) = some l := phraseList?_val h0
    rw [setLength, whenReady_of_ready hready, hl]
    exact (if_neg (Nat.not_lt.mpr hle)).trans (if_neg (Bool.eq_false_iff.mp hlock))

/-! ### Reading the store (R31) -/

theorem out16_word_eq (a b : Byte) : out16 (word a b) = [a, b] := by
  have ha := a.isLt
  have hb := b.isLt
  have low : BitVec.ofNat 8 (word a b) = a := BitVec.eq_of_toNat_eq (by rw [BitVec.toNat_ofNat, word]; omega)
  have high : BitVec.ofNat 8 (word a b / 256) = b := BitVec.eq_of_toNat_eq (by rw [BitVec.toNat_ofNat, word]; omega)
  rw [out16, low, high]

theorem involved_iff (s : State) (l : ListNo) : involved s l = true ↔ s.ctl.cmd.source = some l ∨ s.ctl.cmd.target = some l := by
  simp [involved, involvedLists]

theorem outMusical_eq (m : Musical) : outMusical m = out16 m.onset ++ out16 m.duration ++
    [byte m.division.num, byte ((if m.expect then 1 else 0) + (if m.fermata then 2 else 0) + (if m.tie then 4 else 0) + 8),
      byte m.keys.length, m.verses] ++ m.keys.map fun k => byte k.val := by
  rw [← flatMap_out8]
  simp [outMusical, musicalFlags]

/-- Settles O15. -/
theorem stepGetAndListGetReadTheStore : Obligations.StepGetAndListGetReadTheStore := by
  unfold Obligations.StepGetAndListGetReadTheStore
  refine ⟨fun s tag n0 n1 h => ⟨fun hn => ?noStep, fun n hn => ⟨fun hbusy => ?stepBusy, fun hstep hsrc htgt => ?record⟩⟩,
    fun s tag l i0 i1 h => ⟨fun hout => ?noList, fun hl hi => ⟨fun hbusy => ?listBusy, fun hsrc htgt => ?run⟩⟩⟩
  case noStep =>
    have hnone : stepNo? (wordAt [n0, n1] 0) = none := dif_neg (Nat.not_lt.mpr hn)
    exact exec_refused h (act := getStep) rfl rfl (by rw [getStep, hnone])
  case stepBusy =>
    have hstep : stepNo? (wordAt [n0, n1] 0) = some n := (congrArg stepNo? hn).trans (dif_pos n.isLt)
    refine exec_refused h (act := getStep) rfl rfl ?_
    rw [getStep, hstep]
    exact if_pos (hbusy.imp_right (involved_iff s _).mpr)
  case record =>
    have hstep' : stepNo? (wordAt [n0, n1] 0) = some n := (congrArg stepNo? hn).trans (dif_pos n.isLt)
    refine exec_done h (act := getStep) rfl rfl ?_
    rw [getStep, hstep']
    refine (if_neg ?_).trans ?_
    · rintro (hs | hi)
      · exact hstep hs
      · exact ((involved_iff s _).mp hi).elim hsrc htgt
    · rw [outStepRecord, outMusical_eq, ← hn, out16_word_eq]
      simp [outStep, outInt16]
      rfl
  case noList =>
    refine exec_refused h (act := getList) rfl rfl ?_
    unfold getList
    rcases hout with hl | hi
    · have hnone : listNo? (byteAt [l, i0, i1] 0) = none := dif_neg (Nat.not_lt.mpr hl)
      rw [hnone]
    · split
      · exact if_pos hi
      · rfl
  case listBusy =>
    refine exec_refused h (act := getList) rfl rfl ?_
    rw [getList, byteAt_cons_zero, listNo?_some hl]
    exact (if_neg (Nat.not_lt.mpr hi)).trans (if_pos ((involved_iff s _).mpr hbusy))
  case run =>
    refine exec_done h (act := getList) rfl rfl ?_
    rw [getList, byteAt_cons_zero, listNo?_some hl]
    refine (if_neg (Nat.not_lt.mpr hi)).trans ((if_neg fun hb => ((involved_iff s _).mp hb).elim hsrc htgt).trans ?_)
    refine congrArg (done _) ?_
    simp only [outListRun, outStep, out8_eq, byte_of_toNat]
    cases hb : listLocked s ⟨l.toNat, hl⟩
    all_goals
      have hb' : listLocked (withoutHead s) ⟨l.toNat, hl⟩ = _ := hb
      rw [hb']
      simp [wordAt, word]
      rfl

end Machine

end Sys2Proof
end

section
/-! PROOF. The visits of the list controller and the placing of its reply (O16 to O19). -/

namespace Sys2Proof

namespace Machine

set_option Elab.async false

/-! ### A row that is due -/

theorem exec_of_due {row : Instr} {s act : State} {isDue : Bool} (hx : exec row s = whenDue s isDue act) (hd : isDue = true)
    (hr : s.relay.resetting = false) : exec row s = .next act := by
  rw [hx, whenDue, hd, hr]
  rfl

/-- A row that is not due changes nothing (note 1). -/
theorem exec_of_not_due {row : Instr} {s act : State} {isDue : Bool} (hx : exec row s = whenDue s isDue act) (hd : isDue = false) :
    exec row s = .next s := by
  rw [hx, whenDue, hd]
  rfl

/-! ### The early reply (R24, R25) -/

theorem placeCtlReply_of_none {s : State} (h : s.ctl.reply = none) : placeCtlReply s = s := by
  rw [placeCtlReply, h]
  split <;> first | rfl | contradiction

theorem placeCtlReply_of_full {s : State} (h : s.relay.slot.isSome) : placeCtlReply s = s := by
  obtain ⟨r, hr⟩ := Option.isSome_iff_exists.mp h
  rw [placeCtlReply, hr]

/-- With the slot empty the reply is placed: READY when no visit is left, else BUSY-RESULT-POSTED. -/
theorem placeCtlReply_of_room {s : State} {r : Reply} (hslot : s.relay.slot = none) (hr : s.ctl.reply = some r) :
    placeCtlReply s = match s.ctl.work with
      | none => toReady ((s.withRelay { s.relay with slot := some r }).withCtl { s.ctl with reply := none })
      | some _ => (s.withRelay { s.relay with slot := some r }).withCtl { s.ctl with reply := none, phase := .busyResultPosted } := by
  rw [placeCtlReply, hslot, hr]
  rfl

theorem placeEarly_of_other {s : State} (h : s.ctl.cmd.kind ≠ some .stepNew) : placeEarly s = s := by
  unfold placeEarly
  split
  · contradiction
  · rfl

theorem placeEarly_of_new {s : State} (h : s.ctl.cmd.kind = some .stepNew) : placeEarly s = placeCtlReply s := by
  rw [placeEarly, h]

theorem placeEarly_of_placed {s : State} (h : s.ctl.cmd.kind = some .stepNew → s.relay.slot.isSome ∨ s.ctl.reply = none) :
    placeEarly s = s := by
  by_cases hk : s.ctl.cmd.kind = some .stepNew
  · rw [placeEarly_of_new hk]
    exact (h hk).elim placeCtlReply_of_full placeCtlReply_of_none
  · exact placeEarly_of_other hk

theorem exec_listVisit {s : State} (hr : s.relay.resetting = false) {w : Work} (hw : s.ctl.work = some w) :
    exec .listVisit s = .next (visit (placeEarly s)) :=
  exec_of_due rfl (by rw [visitDue, hw]; rfl) hr

/-! ### The visits -/

/-- Settles O16: the visit of each kind of work. -/
theorem listVisitWritesTheStepAndWalks : Obligations.ListVisitWritesTheStepAndWalks := by
  unfold Obligations.ListVisitWritesTheStepAndWalks
  intro s n x m dest t rest hr hplaced
  have visits : ∀ w, s.ctl.work = some w → exec .listVisit s = .next (visit s) := fun w hw => by
    rw [exec_listVisit hr hw, placeEarly_of_placed hplaced]
  refine ⟨fun hw => ?new, fun hw hne => ?moved, fun hw he => ?same, fun hw => ?walk⟩
  case new =>
    rw [visits _ hw, visit, hw]
    rfl
  case moved =>
    rw [visits _ hw, visit, hw]
    refine congrArg Host.Outcome.next ?_
    change setVisit s n m dest = _
    exact if_neg hne
  case same =>
    rw [visits _ hw, visit, hw]
    refine congrArg Host.Outcome.next ?_
    have hm : { m with onset := (stepRec s n).music.onset } = m := by rw [← he]
    change setVisit s n m dest = _
    refine (if_pos he).trans ?_
    rw [hm]
    rfl
  case walk =>
    rw [visits _ hw, visit, hw]
    refine congrArg Host.Outcome.next (congrArg (fun w => withWork s (some w)) ?_)
    unfold walkOn
    split
    · rfl
    · cases rest with
      | nil => rfl
      | cons y more => exact (if_neg (List.cons_ne_nil _ _)).symm

/-- In `u` step `n` has been linked into list `dest` at onset `t`, after step `x` or first. -/
def Linked (s : State) (n : StepNo) (t : Nat) (dest : ListNo) (x : Option StepNo) (u : State) : Prop :=
  (∀ l, chain u l =
    let c := if l = (stepRec s n).list then (chain s l).erase n else chain s l
    if l = dest then insertAfter c x n else c) ∧
  u.store.lengths = s.store.lengths ∧ (stepRec u n).list = dest ∧
  (stepRec u n).music = { (stepRec s n).music with onset := t } ∧
  ∀ k, k ≠ n → (stepRec u k).list = (stepRec s k).list ∧ (stepRec u k).music = (stepRec s k).music

theorem linked_relink (s : State) (n : StepNo) (t : Nat) (dest : ListNo) (x : Option StepNo) :
    Linked s n t dest x (relink s n t dest x) := by
  refine ⟨fun l => ?_, rfl, ?_, ?_, fun k hk => ?_⟩
  · have unlinked : ∀ l, chain (unlink s (stepRec s n).list n) l =
        if l = (stepRec s n).list then (chain s l).erase n else chain s l := fun l => by
      rw [unlink, chain_withChain]
      split
      · rename_i he; rw [he]
      · rfl
    change chain (withListField (writeOnset (withChain (unlink s _ n) dest _) n t) n dest) l = _
    simp only [withListField, writeOnset, chain_writeStep, chain_withChain]
    split
    · rename_i he; rw [unlinked, he]
    · rw [unlinked]
  · rw [stepRec_relink, if_pos rfl]
  · rw [stepRec_relink, if_pos rfl]
  · rw [stepRec_relink, if_neg hk]
    exact ⟨rfl, rfl⟩

theorem Linked.of_score {s v u : State} {n : StepNo} {t : Nat} {dest : ListNo} {x : Option StepNo} (h : Linked s n t dest x v)
    (hs : ScoreKept v.store u.store) : Linked s n t dest x u := by
  obtain ⟨hchain, hlen, hlist, hmusic, hother⟩ := h
  refine ⟨fun l => ?_, hs.lengths.trans hlen, (hs.list n).trans hlist, (hs.music n).trans hmusic,
    fun k hk => ⟨(hs.list k).trans (hother k hk).1, (hs.music k).trans (hother k hk).2⟩⟩
  rw [← hchain l, chain, chain, hs.chains]

theorem evolves_toReady (s : State) :
    Evolves (s.withCtl { s.ctl with phase := .ready, cmd := CommandRecord.empty, work := none, reply := none }) (toReady s) :=
  evolves_joinLists _

theorem scoreKept_finishLink (s : State) (n : StepNo) (dest : ListNo) : ScoreKept s.store (finishLink s n dest).store := by
  unfold finishLink
  split
  · unfold finishNew
    split
    · exact .refl _
    · exact (evolves_toReady (withWork s none)).score
  · exact .refl _
  · exact .refl _

theorem toReady_ctl (s : State) :
    (toReady s).ctl = { s.ctl with phase := .ready, cmd := CommandRecord.empty, work := none, reply := none } :=
  (evolves_toReady s).ctl

theorem finishLink_of_move {s : State} (h : s.ctl.cmd.kind = some .stepMove) (n : StepNo) (dest : ListNo) :
    finishLink s n dest = finishWith s .stepMove (out16 n.val ++ out8 dest.val) := by
  rw [finishLink, h]

theorem finishLink_of_set {s : State} (h : s.ctl.cmd.kind = some .stepSet) (n : StepNo) (dest : ListNo) :
    finishLink s n dest = finishWith s .stepSet (out16 n.val) := by
  rw [finishLink, h]

theorem finishLink_of_new {s : State} (h : s.ctl.cmd.kind = some .stepNew) (n : StepNo) (dest : ListNo) :
    finishLink s n dest = finishNew s := by
  rw [finishLink, h]

/-- Settles O17: the visit is the relink, then the end of the command's walk by its kind. -/
theorem listVisitLinksTheStep : Obligations.ListVisitLinksTheStep := by
  unfold Obligations.ListVisitLinksTheStep
  intro s n t dest x hr hw
  have early : placeEarly s = s ∨ s.ctl.cmd.kind = some .stepNew ∧ s.ctl.reply.isSome ∧ s.relay.slot = none ∧
      ∃ r, placeEarly s = (s.withRelay { s.relay with slot := some r }).withCtl
        { s.ctl with reply := none, phase := .busyResultPosted } := by
    by_cases hk : s.ctl.cmd.kind = some .stepNew
    · cases hslot : s.relay.slot with
      | some _ => exact .inl (placeEarly_of_placed fun _ => .inl (by rw [hslot]; rfl))
      | none =>
        cases hreply : s.ctl.reply with
        | none => exact .inl (placeEarly_of_placed fun _ => .inr hreply)
        | some r => exact .inr ⟨hk, rfl, rfl, r, by rw [placeEarly_of_new hk, placeCtlReply_of_room hslot hreply, hw]⟩
    · exact .inl (placeEarly_of_other hk)
  have linked : ∀ u, u.store = s.store → Linked s n t dest x (finishLink (relink u n t dest x) n dest) := fun u hu => by
    have hl : Linked u n t dest x (relink u n t dest x) := linked_relink u n t dest x
    have hl : Linked s n t dest x (relink u n t dest x) := by
      unfold Linked chain stepRec at hl ⊢
      rw [hu] at hl
      exact hl
    exact hl.of_score (scoreKept_finishLink _ _ _)
  have visits : exec .listVisit s = .next (finishLink (relink (placeEarly s) n t dest x) n dest) := by
    rw [exec_listVisit hr hw, visit]
    have : (placeEarly s).ctl.work = some (.link n t dest x) := by
      rcases early with h | ⟨-, -, -, r, h⟩ <;> (rw [h]; exact hw)
    rw [this]
  refine ⟨_, visits, ?_⟩
  have hstore : (placeEarly s).store = s.store := by
    rcases early with h | ⟨-, -, -, r, h⟩
    · rw [h]
    · rw [h]; rfl
  obtain ⟨hchain, hlen, hlist, hmusic, hother⟩ := linked _ hstore
  refine ⟨hchain, hlen, hlist, hmusic, hother, fun hk => ?move, fun hk => ?set, fun hk hplaced => ?ready, fun hk hsome hfull => ?waits⟩
  case move =>
    rw [placeEarly_of_other (by rw [hk]; nofun), finishLink_of_move (s := relink s n t dest x) hk]
    rfl
  case set =>
    rw [placeEarly_of_other (by rw [hk]; nofun), finishLink_of_set (s := relink s n t dest x) hk]
    rfl
  case ready =>
    have placed : (placeEarly s).ctl.reply = none := by
      rcases early with h | ⟨-, -, -, r, h⟩
      · rw [h]
        refine hplaced.elim id fun hslot => ?_
        by_contra hreply
        obtain ⟨r, hreply⟩ := Option.ne_none_iff_exists'.mp hreply
        rw [placeEarly_of_new hk, placeCtlReply_of_room hslot hreply, hw] at h
        exact nomatch hreply.symm.trans (congrArg (fun u => u.ctl.reply) h).symm
      · rw [h]; rfl
    have kind : (placeEarly s).ctl.cmd.kind = some .stepNew := by
      rcases early with h | ⟨-, -, -, r, h⟩ <;> (rw [h]; exact hk)
    have ends : finishLink (relink (placeEarly s) n t dest x) n dest =
        toReady (withWork (relink (placeEarly s) n t dest x) none) := by
      rw [finishLink_of_new (s := relink (placeEarly s) n t dest x) kind, finishNew]
      have placed : (relink (placeEarly s) n t dest x).ctl.reply = none := placed
      rw [placed]
    rw [ends, toReady_ctl]
    exact ⟨rfl, rfl, rfl, rfl⟩
  case waits =>
    obtain ⟨r, hr⟩ := Option.isSome_iff_exists.mp hsome
    rw [placeEarly_of_placed fun _ => .inl hfull, finishLink_of_new (s := relink s n t dest x) hk, finishNew]
    have hr : (relink s n t dest x).ctl.reply = some r := hr
    rw [hr]
    rfl

/-- Settles O18. -/
theorem listVisitFreesEmptiesAndMeasures : Obligations.ListVisitFreesEmptiesAndMeasures := by
  unfold Obligations.ListVisitFreesEmptiesAndMeasures
  intro s n l moved t rest hr hk h0
  have visits : ∀ w, s.ctl.work = some w → exec .listVisit s = .next (visit s) := fun w hw => by
    rw [exec_listVisit hr hw, placeEarly_of_other hk]
  have freed : ∀ c, appendFree (withChain s l c) n = s.withStore { s.store with
      steps := vset s.store.steps n { stepRec s n with list := 0 }
      chains := vset (vset s.store.chains l c) 0 (chain s 0 ++ [n]) } := fun c => by
    have hfree : chain (withChain s l c) 0 = chain s 0 := by rw [chain_withChain, if_neg (Ne.symm h0)]
    rw [appendFree, hfree]
    rfl
  refine ⟨fun hw hl => ?free, fun hw hc => ?empty, fun hw => ?length⟩
  case free =>
    rw [visits _ hw, visit, hw]
    dsimp only
    rw [unlink, hl, freed]
    rfl
  case empty =>
    rw [visits _ hw, visit, hw]
    dsimp only
    rw [emptyVisit, hc]
    dsimp only
    rw [freed]
    split <;> rfl
  case length =>
    rw [visits _ hw, visit, hw]
    rfl

/-! ### The reply placed at READY (R24, R33) -/

/-- With no command in flight and play going on, the lists play calls for are the lock set after the return to READY. -/
theorem calledLocked_joinLists {s : State} (hp : s.follower.play ≠ .idle) : CalledLocked (joinLists s) := by
  unfold joinLists
  rw [if_neg hp]
  refine ((evolves_takeHeld _).trans (evolves_waitingSwitches _)).called ?_
  have locked := calledLocked_formLocks s
  split
  · rename_i he
    exact fun hs ht => he.symm.trans (locked hs ht)
  · exact ((evolves_releasePassed _).trans ((evolves_formStop _).trans (evolves_checkWait _))).called locked

/-- Settles O19. -/
theorem listCommandDonePlacesTheReply : Obligations.ListCommandDonePlacesTheReply := by
  unfold Obligations.ListCommandDonePlacesTheReply
  intro s r hr hreply hslot
  have done_ : exec .listCommandDone s = .next (placeCtlReply s) :=
    exec_of_due rfl (by rw [commandDoneDue, hreply, hslot]; rfl) hr
  refine ⟨fun w hw => ?posted, fun w hw hk => ?visit, fun hw hidle => ?idle, fun hw hplay => ?playing⟩
  case posted => rw [done_, placeCtlReply_of_room hslot hreply, hw]
  case visit =>
    have later := exec_listVisit (s := (s.withRelay { s.relay with slot := some r }).withCtl
      { s.ctl with reply := none, phase := .busyResultPosted }) hr hw
    rw [placeEarly_of_placed fun _ => .inr rfl] at later
    rw [later, exec_listVisit hr hw, placeEarly_of_new hk, placeCtlReply_of_room hslot hreply, hw]
  case idle =>
    rw [done_, placeCtlReply_of_room hslot hreply, hw]
    exact congrArg _ (if_pos hidle)
  case playing =>
    refine ⟨_, done_, ?_⟩
    rw [placeCtlReply_of_room hslot hreply, hw]
    have joins := evolves_toReady ((s.withRelay { s.relay with slot := some r }).withCtl { s.ctl with reply := none })
    refine ⟨joins.relay.slot, joins.ctl, ?_⟩
    exact calledLocked_joinLists (s := State.withCtl _ _) hplay (congrArg (fun c => c.cmd.source) joins.ctl)
      (congrArg (fun c => c.cmd.target) joins.ctl)

end Machine

end Sys2Proof
end

section
/-! PROOF. Play control that stops or changes mode (O20, O22, O24, O25, O28): what a stop of play leaves, and a change of mode that
starts no entry. -/

namespace Sys2Proof

namespace Machine

set_option Elab.async false

/-! ### What every play request leaves -/

/-- Play that writes no result leaves the score, the tables and the lines. -/
theorem Evolves.sameScoreAndTables {s t : State} (h : Evolves s t) (hs : t.store = s.store) : SameScoreAndTables s t := by
  have hr := h.relay.same
  refine ⟨hs, h.ctl, h.tables, h.partTime, h.pins, ?_, ?_, ?_, ?_, ?_, ?_, ?_, h.freeCount⟩ <;> rw [hr]

/-! ### Purges (R144) -/

theorem Purged.other {s t : State} {d e : Division} (h : Purged s t d) (he : d ≠ e) : Purged s (purge t e) d := by
  obtain ⟨hq, hc, hw, hh, hk, hm⟩ := h
  obtain ⟨hq', hh', hk', hc'⟩ := purge_other t he
  refine ⟨hq'.trans hq, hc'.trans hc, fun w hs hcatch => ?_, fun k => by rw [hh', hh], fun k => by rw [hk', hk], fun hex =>
    (evolves_purge t e).relay.mem _ (hm hex)⟩
  have hstalled : (purge t e).sched.stalled = t.sched.stalled.filter fun w => !(w.catchUp && decide (w.division = e)) := by
    unfold purge; split <;> simp
  rw [hstalled, Option.filter_eq_some_iff] at hs
  exact hw w hs.1 hcatch

theorem Purged.of_same {s t u : State} {d : Division} (h : Purged t u d) (hh : t.sched.holds.get d = s.sched.holds.get d)
    (hk : t.sched.keyUps.get d = s.sched.keyUps.get d) (ht : t.partTime = s.partTime) : Purged s u d := by
  unfold Purged at h ⊢
  rwa [hh, hk, ht] at h

/-- What a later change that leaves the divisions' part of the scheduler keeps of a purge. -/
theorem Purged.later {s t u : State} {d : Division} (h : Purged s t d) (hq : u.sched.queues = t.sched.queues)
    (hc : u.sched.catchUp.get d = t.sched.catchUp.get d) (hw : u.sched.stalled = none ∨ u.sched.stalled = t.sched.stalled)
    (hh : u.sched.holds = t.sched.holds) (hk : u.sched.keyUps = t.sched.keyUps)
    (hm : ∀ x ∈ t.relay.downQueue, x ∈ u.relay.downQueue) : Purged s u d := by
  obtain ⟨pq, pc, pw, ph, pk, pm⟩ := h
  refine ⟨by rw [queue, hq]; exact pq, hc.trans pc, fun w hs => ?_, by rw [hh]; exact ph, by rw [hk]; exact pk, fun hex => hm _ (pm hex)⟩
  rcases hw with hw | hw <;> rw [hw] at hs
  · cases hs
  · exact pw w hs

/-- Division `d` has the same queue, hold counts, key-up times and catch-up walk in `s` and `t`. -/
def SameDivision (s t : State) (d : Division) : Prop :=
  queue t d = queue s d ∧ t.sched.holds.get d = s.sched.holds.get d ∧ t.sched.keyUps.get d = s.sched.keyUps.get d ∧
    t.sched.catchUp.get d = s.sched.catchUp.get d

/-- The purge of several divisions, some of them passed over. -/
theorem purged_purges (skip : Division → Bool) (ds : List Division) (hn : ds.Nodup) (s : State) (d : Division) :
    (d ∈ ds → skip d = false → Purged s (ds.foldl (fun a e => if skip e then a else purge a e) s) d) ∧
      (d ∉ ds ∨ skip d = true → SameDivision s (ds.foldl (fun a e => if skip e then a else purge a e) s) d) := by
  induction ds using List.reverseRecOn with
  | nil => exact ⟨nofun, fun _ => ⟨rfl, rfl, rfl, rfl⟩⟩
  | append_singleton ds e ih =>
    rw [List.foldl_append, List.foldl_cons, List.foldl_nil]
    obtain ⟨hn, -, hdisj⟩ := List.nodup_append.mp hn
    obtain ⟨hin, hout⟩ := ih hn
    have time : (ds.foldl (fun a e => if skip e then a else purge a e) s).partTime = s.partTime :=
      (evolves_foldl (fun a d => .ite (fun _ => .refl a) fun _ => evolves_purge a d) ds s).partTime
    constructor
    · intro hd hskip
      by_cases he : d = e
      · subst he
        have hnot : d ∉ ds := fun h => hdisj d h d List.mem_cons_self rfl
        obtain ⟨-, hh, hk, -⟩ := hout (.inl hnot)
        rw [if_neg (Bool.eq_false_iff.mp hskip)]
        exact (purged_purge _ d).of_same hh hk time
      · have hmem : d ∈ ds := (List.mem_append.mp hd).resolve_right fun h => he (List.mem_singleton.mp h)
        split
        · exact hin hmem hskip
        · exact (hin hmem hskip).other he
    · intro hd
      have hd' : d ∉ ds ∨ skip d = true := hd.imp_left fun h hm => h (List.mem_append_left _ hm)
      obtain ⟨hq, hh, hk, hc⟩ := hout hd'
      split
      · exact ⟨hq, hh, hk, hc⟩
      · rename_i hskip
        have he : d ≠ e := by
          rintro rfl
          exact hd.elim (fun h => h (List.mem_append_right _ List.mem_cons_self)) hskip
        obtain ⟨hq', hh', hk', hc'⟩ := purge_other (ds.foldl (fun a e => if skip e then a else purge a e) s) he
        exact ⟨hq'.trans hq, hh'.trans hh, hk'.trans hk, hc'.trans hc⟩

theorem purged_purgeAll (s : State) (d : Division) : Purged s (purgeAll s) d :=
  (purged_purges (fun _ => false) Division.all (by decide) s d).1 (by cases d <;> decide) rfl

/-! ### The registration dropped (R54) -/

theorem formedImage_none {s : State} (h : s.sched.active = none) : formedImage s = 0 := by
  refine BitVec.eq_of_getLsbD_eq fun i hi => ?_
  rw [formedImage_getLsbD s ⟨i, hi⟩, activeSet, h]
  simp

theorem clearRegistration_sched (s : State) :
    (clearRegistration s).sched = { s.sched with switched := none, active := none, stopImage := 0 } := by
  rw [clearRegistration, setActive_sched, formedImage_none rfl]
  rfl

theorem registrationDropped_clear {s t : State} (himage : t.sched.stopImage = s.sched.stopImage) :
    RegistrationDropped s (clearRegistration t) := by
  rw [RegistrationDropped, clearRegistration_sched]
  refine ⟨rfl, rfl, rfl, fun hne => reformStops_marks ?_⟩
  rw [formedImage_none rfl]
  exact fun h0 => hne (himage.symm.trans h0.symm)

/-! ### A stop of play (R122) -/

theorem discarded_sched (s : State) : (clearRegistration (discardWalks s)).sched = { s.sched with
    walkCurrent := none, walkNext := none, catchUp := PerDiv.fill none, stalled := none, switched := none, active := none
    stopImage := 0 } := by
  rw [clearRegistration_sched]
  rfl

theorem Purged.discarded {s t : State} {d : Division} (h : Purged s t d) : Purged s (clearRegistration (discardWalks t)) d := by
  have hsched := discarded_sched t
  have hc : (clearRegistration (discardWalks t)).sched.catchUp.get d = t.sched.catchUp.get d := by
    rw [hsched, h.2.1]
    exact PerDiv.get_fill _ _
  exact h.later (by rw [hsched]) hc (.inl (by rw [hsched])) (by rw [hsched]) (by rw [hsched])
    ((evolves_discardWalks t).trans (evolves_clearRegistration _)).relay.mem

theorem purged_stopPlay (s : State) (d : Division) : Purged s (stopPlay s) d :=
  ((purged_purgeAll (idleFollower (stopClock s true)) d).of_same (by simp) (by simp) (by simp)).discarded

theorem purge_stopImage (s : State) (d : Division) : (purge s d).sched.stopImage = s.sched.stopImage := by
  unfold purge; split <;> simp

theorem registrationDropped_stopPlay (s : State) : RegistrationDropped s (stopPlay s) :=
  registrationDropped_clear (by simp [discardWalks, purgeAll, Division.all, purge_stopImage])

/-- What a stop of play leaves of the clock, the alerts and the follower. -/
theorem stopPlay_spec (s : State) : (stopPlay s).clock = stoppedClock s ∧
    (stopPlay s).handler = ((stopAlerts s).foldl postAlert s).handler ∧ (stopPlay s).follower = resting s.follower := by
  obtain ⟨hclock, hhandler⟩ := stopClock_spec s true
  refine ⟨?_, ?_, ?_⟩
  · have : (stopPlay s).clock = (stopClock s true).clock := by simp [stopPlay]
    rw [this, hclock]
    rfl
  · have : (stopPlay s).handler = (stopClock s true).handler := by simp [stopPlay]
    rw [this, hhandler]
  · have : (stopPlay s).follower = (idleFollower (stopClock s true)).follower := by simp [stopPlay]
    rw [this]
    simp [idleFollower, resting]

/-! ### MODE (R124) -/

theorem mode_ofCode? (m : Mode) : Mode.ofCode? (byte m.code).toNat = some m := by cases m <;> rfl

theorem mode_ofCode?_none {k : Nat} (h : 4 ≤ k) : Mode.ofCode? k = none := by
  match k, h with
  | k + 4, _ => rfl

theorem modeRequest_mode (s : State) (tag : Byte) (m : Mode) :
    modeRequest s tag [byte m.code] = done (requestMode s m) [byte (modeByte (requestMode s m))] := by
  rw [modeRequest, byteAt_cons_zero, mode_ofCode?]
  rfl

theorem formStop_of_not_playing {s : State} (h : playing s = false) : formStop s = s := by
  rw [formStop, h]
  rfl

theorem formStop_follower (s : State) : (formStop s).follower = { s.follower with stop := (formStop s).follower.stop } := by
  unfold formStop; split <;> rfl

theorem playImage_eq_zero_of_isEmpty {s : State} {d : Division} (h : (heldKeys (s.sched.holds.get d)).isEmpty = true) :
    playImage s d = 0 := by
  rw [playImage, List.isEmpty_iff.mp h]
  rfl

/-- Every division with keys sounding, and the stop frame if any stop is drawn, is marked. -/
theorem markMerged_marks (s : State) : (∀ d, playImage s d ≠ 0 → .marker (.keys d) ∈ (markMerged s).relay.downQueue) ∧
    (s.sched.stopImage ≠ 0 → .marker .stops ∈ (markMerged s).relay.downQueue) := by
  have marks : ∀ (ds : List Division) (u : State) (d : Division), d ∈ ds → playImage s d ≠ 0 → .marker (.keys d) ∈
      (ds.foldl (fun a d => if (heldKeys (s.sched.holds.get d)).isEmpty then a else markDue a (.keys d)) u).relay.downQueue := by
    intro ds
    induction ds using List.reverseRecOn with
    | nil => exact fun _ _ h => nomatch h
    | append_singleton ds e ih =>
      intro u d hd hne
      rw [List.foldl_append, List.foldl_cons, List.foldl_nil]
      rcases List.mem_append.mp hd with hd | hd
      · split
        · exact ih u d hd hne
        · exact mem_markDue (ih u d hd hne) _
      · obtain rfl := List.mem_singleton.mp hd
        rw [if_neg fun he => hne (playImage_eq_zero_of_isEmpty he)]
        exact markDue_mem _ _
  unfold markMerged
  refine ⟨fun d hne => ?_, fun hne => ?_⟩
  · have hm := marks Division.all s d (by cases d <;> decide) hne
    split
    · exact hm
    · exact mem_markDue hm _
  · rw [if_neg hne]
    exact markDue_mem _ _

/-- A change of mode, but for the stop point and the frames it marks. -/
theorem enterMode_follower (s : State) (m : Mode) : (enterMode s m).follower =
    { s.follower with mode := m, pendingMode := none, stop := (enterMode s m).follower.stop } := by
  unfold enterMode
  rw [formStop_follower]
  split <;> simp

theorem enterMode_stop_of_not_playing {s : State} (h : playing s = false) (m : Mode) :
    (enterMode s m).follower.stop = s.follower.stop := by
  have idle : ∀ u : State, u.follower.play = s.follower.play → (formStop u).follower.stop = u.follower.stop := fun u hu => by
    rw [formStop_of_not_playing]
    unfold playing at h ⊢
    rwa [hu]
  simp only [enterMode]
  split <;> rw [idle _ (by simp)] <;> simp

theorem enterMode_relay_of_same {s : State} {m : Mode} (h : merges m = merges s.follower.mode) :
    (enterMode s m).relay = s.relay := by
  simp [enterMode, h]

theorem enterMode_marks {s : State} {m : Mode} (h : merges m ≠ merges s.follower.mode) :
    (∀ d, playImage s d ≠ 0 → .marker (.keys d) ∈ (enterMode s m).relay.downQueue) ∧
      (s.sched.stopImage ≠ 0 → .marker .stops ∈ (enterMode s m).relay.downQueue) := by
  have hm := markMerged_marks (s.withFollower { s.follower with mode := m, pendingMode := none })
  have hrelay : (enterMode s m).relay = (markMerged (s.withFollower { s.follower with mode := m, pendingMode := none })).relay := by
    simp [enterMode, h]
  rw [hrelay]
  exact hm

theorem modeByte_of_no_pending {s : State} (h : s.follower.pendingMode = none) : modeByte s = s.follower.mode.code := by
  simp [modeByte, h]

/-- The changes of mode that take effect at once and start no entry. -/
theorem requestMode_at_once {s : State} {m : Mode} (h :
    (((s.follower.mode = .rehearse ∧ m = .follow) ∨ (s.follower.mode = .follow ∧ m = .rehearse)) ∧
        (s.follower.play = .idle ∨ imagesEmpty s = true)) ∨
      (s.follower.mode = .off ∧ m ≠ .off ∧ m ≠ .steady) ∨ (s.follower.mode = .steady ∧ m ≠ .off ∧ m ≠ .steady)) :
    requestMode s m = enterMode s m := by
  have swap : s.follower.play = .idle ∨ imagesEmpty s = true → enterOrWait s m = enterMode s m := fun h => if_pos h
  rcases h with ⟨⟨ho, rfl⟩ | ⟨ho, rfl⟩, hq⟩ | ⟨ho, h1, h2⟩ | ⟨ho, h1, h2⟩
  · simp [requestMode, ho, swap hq]
  · simp [requestMode, ho, swap hq]
  · cases m <;> simp_all [requestMode]
  · cases m <;> simp_all [requestMode]

/-- Settles O20. -/
theorem modeChangesOrWaitsForSilence : Obligations.ModeChangesOrWaitsForSilence := by
  unfold Obligations.ModeChangesOrWaitsForSilence
  intro s tag
  refine ⟨fun b h hb => ?range, fun m h => ⟨fun he => ?inForce, fun hswap hplay himages => ?pending, fun hnow => ?atOnce⟩⟩
  case range => exact exec_refused h (act := modeRequest) rfl rfl (by rw [modeRequest, byteAt_cons_zero, mode_ofCode?_none hb])
  case inForce =>
    refine exec_done h (act := modeRequest) rfl rfl ((modeRequest_mode _ tag m).trans ?_)
    have same : requestMode (withoutHead s) m = (withoutHead s).withFollower { s.follower with pendingMode := none } := if_pos he
    rw [same, modeByte_of_no_pending rfl, he]
    rfl
  case pending =>
    refine exec_done h (act := modeRequest) rfl rfl ((modeRequest_mode _ tag m).trans ?_)
    have waits : enterOrWait (withoutHead s) m = (withoutHead s).withFollower { s.follower with pendingMode := some m } :=
      if_neg fun hq => hq.elim hplay (Bool.eq_false_iff.mp himages)
    have same : requestMode (withoutHead s) m = (withoutHead s).withFollower { s.follower with pendingMode := some m } := by
      rcases hswap with ⟨ho, rfl⟩ | ⟨ho, rfl⟩ <;> simp [requestMode, ho, waits]
    rw [same]
    rfl
  case atOnce =>
    have same : requestMode (withoutHead s) m = enterMode (withoutHead s) m := requestMode_at_once (s := withoutHead s) hnow
    refine ⟨enterMode (withoutHead s) m, ?_, (evolves_enterMode (withoutHead s) m).sameScoreAndTables (by simp),
      enterMode_follower _ m, (fun hp => enterMode_stop_of_not_playing (s := withoutHead s) hp m), by simp, by simp, by simp, by simp, by simp,
      fun hm => ?_, fun hm => enterMode_marks (s := withoutHead s) hm⟩
    · refine exec_done h (act := modeRequest) rfl rfl ((modeRequest_mode _ tag m).trans ?_)
      rw [same, modeByte_of_no_pending, enterMode_follower]
      rw [enterMode_follower]
    · exact (enterMode_relay_of_same (s := withoutHead s) hm).trans (by simp)

/-! ### START refused (R100) -/

theorem requestRow_start {args : List Byte} (h : args.length = 0 ∨ args.length = 4) (tag : Byte) :
    requestRow (tag :: 65 :: args) = .start := by
  have hfits : Req.fits .start args = true := by simpa [Req.fits] using h
  simp [requestRow, readRequest, Req.ofCode?, hfits]

/-- Settles O22: the checks of START in their order. -/
theorem startIsCheckedInOrder : Obligations.StartIsCheckedInOrder := by
  unfold Obligations.StartIsCheckedInOrder
  intro s tag args h hlen
  have refuses := fun r => exec_refused (r := r) h (act := startRequest) rfl (requestRow_start hlen tag)
  refine ⟨fun hm => refuses _ ?_, fun hm hf => refuses _ ?_, fun hm hf hp => refuses _ ?_, fun hm hf hp hz => refuses _ ?_,
    fun hm hf hp hz hi => refuses _ ?_⟩
  all_goals unfold startRequest
  · exact if_pos hm
  · exact (if_neg hm).trans (if_pos hf)
  · exact (if_neg hm).trans ((if_neg (Bool.eq_false_iff.mp hf)).trans (if_pos hp))
  · exact (if_neg hm).trans ((if_neg (Bool.eq_false_iff.mp hf)).trans ((if_neg (not_not.mpr hp)).trans (if_pos hz)))
  · exact (if_neg hm).trans ((if_neg (Bool.eq_false_iff.mp hf)).trans ((if_neg (not_not.mpr hp)).trans
      ((if_neg hz).trans (if_pos hi))))

/-! ### FINISH and HALT (R120, R122) -/

theorem exec_finish {s : State} {tag : Byte} (h : Taking s tag 66 []) {t : State} (ht : finishPlay (withoutHead s) = t) :
    exec .finish s = .next (replied t tag 66 .done [byte t.follower.finish.code]) :=
  exec_done h (act := finishRequest) rfl rfl (by rw [finishRequest, ht]; rfl)

/-- A FINISH while an entry plays. -/
theorem finishPlay_of_playing {s : State} (hp : s.follower.play = .gap ∨ s.follower.play = .running ∨ s.follower.play = .holding) :
    finishPlay s = if s.follower.finish ≠ .none then s else
      formStop (s.withFollower { s.follower with finish := if s.follower.next.isSome then .held else .pending }) := by
  rcases hp with hp | hp | hp <;> rw [finishPlay, hp]

theorem finishPlay_of_taken {s : State} (h : s.follower.play ≠ .waiting) (hf : s.follower.finish ≠ .none) : finishPlay s = s := by
  unfold finishPlay
  split
  · rfl
  · rfl
  · contradiction
  · exact if_pos hf

/-- Settles O24: by the play state. -/
theorem finishEndsPlayAfterTheEntry : Obligations.FinishEndsPlayAfterTheEntry := by
  unfold Obligations.FinishEndsPlayAfterTheEntry
  intro s tag h
  refine ⟨fun hp => ?nothing, fun hp => ?waiting, fun hp hf => ?playing⟩
  case nothing =>
    refine exec_finish h ?_
    rcases hp with hp | hp | ⟨hp, hf⟩
    · have hp : (withoutHead s).follower.play = .idle := hp
      rw [finishPlay, hp]
    · have hp : (withoutHead s).follower.play = .ending := hp
      rw [finishPlay, hp]
    · exact finishPlay_of_taken (s := withoutHead s) hp hf
  case waiting =>
    have hp : (withoutHead s).follower.play = .waiting := hp
    exact exec_finish h (by rw [finishPlay, hp]; rfl)
  case playing =>
    let f : Finish := if s.follower.next.isSome then .held else .pending
    let u : State := (withoutHead s).withFollower { s.follower with finish := f }
    have ends : finishPlay (withoutHead s) = formStop u :=
      (finishPlay_of_playing (s := withoutHead s) hp).trans (if_neg (not_not.mpr hf))
    refine ⟨formStop u, ?_, ?_, fun hh => ?_, fun hh hn e he hholds => ?_⟩
    · have hfin : (formStop u).follower.finish = f := by rw [formStop_follower]; rfl
      exact (exec_finish h ends).trans (by rw [hfin])
    · unfold formStop; split <;> rfl
    · rw [formStop_of_not_playing (s := u) (by simp [playing, u, hh])]
      rfl
    · have running : playing u = true := by
        rcases hp with hp | hp | hp
        · simp [playing, u, hp]
        · simp [playing, u, hp]
        · exact absurd hp hh
      have noNext : nextIndex u = none := by
        have hfin : u.follower.finish = .pending := by simp [u, f, hn]
        simp [nextIndex, hfin]
        split <;> rfl
      have hend : phraseEnd u = some e := he
      have hopen : openHolds u (position u) = [] := hholds
      rw [formStop, running]
      change chosenStop u = _
      rw [chosenStop, hopen, hend, noNext]
      rfl

/-- Settles O25: HALT is the stop of play, and FINISH answers what it leaves. -/
theorem haltStopsPlayAtOnce : Obligations.HaltStopsPlayAtOnce := by
  unfold Obligations.HaltStopsPlayAtOnce
  refine ⟨fun s tag h => ⟨_, exec_finish h rfl, fun hp hf => ?finish⟩, fun s tag h => ⟨fun hp => ?idle, fun hp => ?playing⟩⟩
  case finish =>
    have hp : (withoutHead s).follower.play = .idle := hp
    rw [finishPlay, hp]
    exact hf
  case idle =>
    refine exec_done h (act := haltRequest) rfl rfl ?_
    have same : stopIfPlaying (withoutHead s) = withoutHead s := if_pos hp
    have hp : (withoutHead s).follower.play = .idle := hp
    rw [haltRequest, same, hp]
    rfl
  case playing =>
    obtain ⟨hclock, hhandler, hfollower⟩ := stopPlay_spec (withoutHead s)
    have evolves := evolves_stopPlay (withoutHead s)
    have hsched : (stopPlay (withoutHead s)).sched = _ := discarded_sched _
    refine ⟨stopPlay (withoutHead s), ?_, evolves.sameScoreAndTables (by simp), hhandler, by simp, by simp, hfollower, hclock,
      purged_stopPlay (withoutHead s), registrationDropped_stopPlay (withoutHead s), by rw [hsched], by rw [hsched], evolves.relay.mem⟩
    refine exec_done h (act := haltRequest) rfl rfl ?_
    have same : stopIfPlaying (withoutHead s) = stopPlay (withoutHead s) := if_neg hp
    rw [haltRequest, same, hfollower]
    rfl

/-! ### REG-NOW (R48) -/

theorem setOrNone?_val {k : Option SetNo} {n : Nat} (h : (k.map Fin.val).getD 255 = n) : setOrNone? n = some k := by
  cases k with
  | none => obtain rfl : 255 = n := h; rfl
  | some k =>
    obtain rfl : k.val = n := h
    have : k.val ≠ 255 := by omega
    simp [setOrNone?, this, setNo?]

/-- Settles O28. -/
theorem regNowDrawsTheSet : Obligations.RegNowDrawsTheSet := by
  unfold Obligations.RegNowDrawsTheSet
  intro s tag b h
  refine ⟨fun hb hne => ?range, fun k hk => ⟨fun hm => ?off, fun hm => ?drawn⟩⟩
  case range =>
    exact exec_refused h (act := regNowRequest) rfl rfl (by rw [regNowRequest, byteAt_cons_zero, setOrNone?_none hb hne])
  case off =>
    refine exec_refused h (act := regNowRequest) rfl rfl ?_
    rw [regNowRequest, byteAt_cons_zero, setOrNone?_val hk]
    exact if_pos hm
  case drawn =>
    refine exec_done h (act := regNowRequest) rfl rfl ?_
    rw [regNowRequest, byteAt_cons_zero, setOrNone?_val hk]
    refine (if_neg hm).trans ?_
    rw [outOpt8, hk, out8_eq, byte_of_toNat]
    rfl

/-! ### A re-anchor with no tempo pending (R61) -/

theorem raiseHighest_clock (s : State) (x : Pos) (t : PartTime) : (raiseHighest s x t).clock =
    { s.clock with highest := max s.clock.highest x, beats := s.clock.beats + BitVec.ofNat 32 (crossings s x) } := by
  simp only [raiseHighest]; split <;> simp

theorem raiseHighest_follower (s : State) (x : Pos) (t : PartTime) : (raiseHighest s x t).follower = s.follower := by simp

theorem riseTo_of_no_tempo {s : State} (h : s.clock.pendingTempo = none) (x : Pos) (t : PartTime) (now : Pos) :
    riseTo s x t now = raiseHighest s x t := by
  have hp : (raiseHighest s x t).clock.pendingTempo = none := by rw [raiseHighest_clock]; exact h
  simp [riseTo, applyPendingTempo, hp]

/-- A re-anchor at the present and a position below the stop point leaves the clock MOVING there. -/
theorem reanchor_below {s : State} (hn : s.clock.pendingTempo = none) {x : Pos} (p : Nat)
    (hs : ∀ st, s.follower.stop = some st → x < st.pos) :
    reanchor s s.partTime x p =
      raiseHighest (s.withClock { s.clock with state := .moving, t0 := s.partTime, x0 := x, period := p }) (max (position s) x) s.partTime := by
  have hraw : rawAt { s.clock with t0 := s.partTime, x0 := x, period := p } s.partTime = x := rawAt_now _
  have installed : installAnchor s s.partTime x p = s.withClock { s.clock with state := .moving, t0 := s.partTime, x0 := x, period := p } := by
    unfold installAnchor
    cases hstop : s.follower.stop with
    | none => rfl
    | some st => exact if_neg (by rw [hraw]; exact not_le.mpr (hs st hstop))
  have here : position (s.withClock { s.clock with state := .moving, t0 := s.partTime, x0 := x, period := p }) = x := by
    change cutAt s.follower.stop (rawAt _ s.partTime) = x
    cases hstop : s.follower.stop with
    | none => exact rawAt_now _
    | some st => exact (congrArg (min · st.pos) (rawAt_now _)).trans (min_eq_left (hs st hstop).le)
  simp only [reanchor]
  rw [installed, here]
  refine riseTo_of_no_tempo ?_ _ _ _
  exact hn

/-- A re-anchor at the present and the stop point leaves the clock HELD there. -/
theorem reanchor_at_stop {s : State} (hn : s.clock.pendingTempo = none) {x : Pos} (p : Nat)
    (hs : s.follower.stop.map StopPoint.pos = some x) :
    reanchor s s.partTime x p =
      raiseHighest (s.withClock { s.clock with state := .held, t0 := s.partTime, x0 := x, period := p }) (max (position s) x) s.partTime := by
  obtain ⟨st, hst, rfl⟩ := Option.map_eq_some_iff.mp hs
  have hraw : rawAt { s.clock with t0 := s.partTime, x0 := st.pos, period := p } s.partTime = st.pos := rawAt_now _
  have installed : installAnchor s s.partTime st.pos p =
      s.withClock { s.clock with state := .held, t0 := s.partTime, x0 := st.pos, period := p } := by
    unfold installAnchor
    rw [hst]
    exact if_pos hraw.ge
  simp only [reanchor]
  rw [installed]
  refine riseTo_of_no_tempo ?_ _ _ _
  exact hn

/-- A period change in MOVING below the stop point: the position stands and runs on. -/
theorem changePeriod_moving {s : State} (hm : s.clock.state = .moving) (hn : s.clock.pendingTempo = none)
    (hs : ∀ st, s.follower.stop = some st → position s < st.pos) (p : Nat) : changePeriod s p =
      raiseHighest (s.withClock { s.clock with t0 := s.partTime, x0 := position s, period := p }) (position s) s.partTime := by
  rw [changePeriod, hm]
  dsimp only
  rw [reanchor_below hn p hs, max_self, hm]

/-- A period change in HELD at the stop point: the position stays. -/
theorem changePeriod_held {s : State} (hh : s.clock.state = .held) (hn : s.clock.pendingTempo = none)
    (hs : s.follower.stop.map StopPoint.pos = some s.clock.x0) (p : Nat) : changePeriod s p =
      raiseHighest (s.withClock { s.clock with t0 := s.partTime, period := p }) s.clock.x0 s.partTime := by
  have here : position s = s.clock.x0 := position_of_not_moving (by rw [hh]; nofun)
  rw [changePeriod, hh]
  dsimp only
  rw [here, reanchor_at_stop hn p hs, here, max_self, hh]

/-! ### TEMPO (R64, R65) -/

theorem requestRow_tempo (tag timing b0 b1 b2 b3 : Byte) : requestRow [tag, 69, timing, b0, b1, b2, b3] =
    if timing.toNat = 1 then .tempoNextBeat else .tempoNow := by
  change (if decide (timing.toNat = 1) = true then Instr.tempoNextBeat else .tempoNow) = _
  simp only [decide_eq_true_eq]

/-- The state a TEMPO now applies its period in: no tempo pending. -/
def tempoDropped (s : State) : State := s.withClock { s.clock with pendingTempo := none }

theorem tempoAtOnce_eq (s : State) (p : Nat) :
    tempoAtOnce s p = done (settle (changePeriod (tempoDropped s) (clampPeriod s p))) (out32 (clampPeriod s p)) := rfl

theorem settled_stopped {s : State} (h : s.clock.state = .stopped) (p : Nat) : settle (changePeriod (tempoDropped s) p) =
    s.withClock { s.clock with t0 := s.partTime, period := p, pendingTempo := none } := by
  have changed : changePeriod (tempoDropped s) p = s.withClock { s.clock with t0 := s.partTime, period := p, pendingTempo := none } := by
    have : (tempoDropped s).clock.state = .stopped := h
    rw [changePeriod, this]
    rfl
  rw [changed]
  exact settle_of_not_held (by simp [h])

/-- What a rise of the highest position leaves of the whole state. -/
theorem raised_frame (s : State) (x : Pos) (t : PartTime) : (raiseHighest s x t).prot = s.prot ∧
    (raiseHighest s x t).detector = s.detector ∧ (raiseHighest s x t).sched = s.sched ∧
    (raiseHighest s x t).follower = s.follower := by
  simp

/-- Settles O27. -/
theorem tempoAppliesOrWaitsForTheBoundary : Obligations.TempoAppliesOrWaitsForTheBoundary := by
  unfold Obligations.TempoAppliesOrWaitsForTheBoundary
  intro s tag timing b0 b1 b2 b3 h
  have rowNow : timing.toNat ≠ 1 → requestRow [tag, 69, timing, b0, b1, b2, b3] = .tempoNow := fun ht => by
    rw [requestRow_tempo, if_neg ht]
  have rowNext : timing = 1 → requestRow [tag, 69, timing, b0, b1, b2, b3] = .tempoNextBeat := fun ht => by
    rw [requestRow_tempo, ht]; rfl
  have period : ∀ {n : Nat}, long b0 b1 b2 b3 = n → n ≠ 0 → period? (longAt [timing, b0, b1, b2, b3] 1) = some n := fun hn h0 => by
    have : longAt [timing, b0, b1, b2, b3] 1 = long b0 b1 b2 b3 := rfl
    rw [this, period?, hn, if_neg h0]
  have absent : long b0 b1 b2 b3 = 0 → period? (longAt [timing, b0, b1, b2, b3] 1) = none := fun h0 => by
    have : longAt [timing, b0, b1, b2, b3] 1 = long b0 b1 b2 b3 := rfl
    rw [this, period?, if_pos h0]
  have atOnce : timing = 0 → long b0 b1 b2 b3 ≠ 0 → ∀ t,
      settle (changePeriod (tempoDropped (withoutHead s)) (clampPeriod s (long b0 b1 b2 b3))) = t →
      exec .tempoNow s = .next (replied t tag 69 .done (out32 (clampPeriod s (long b0 b1 b2 b3)))) := fun ht h0 t hsettle => by
    refine exec_done h (act := tempoNowRequest) rfl (rowNow (by rw [ht]; decide)) ?_
    rw [tempoNowRequest, period rfl h0, ht]
    exact (tempoAtOnce_eq _ _).trans (by rw [← hsettle]; rfl)
  refine ⟨fun ht hout => ?range, fun ht h0 => ?rangeNext, fun ht h0 hst => ?stopped, fun ht h0 hst hbelow => ?moving,
    fun ht h0 hst hplay hstop => ?held, fun ht h0 hplay => ?next, fun ht h0 hplay hst => ?nextIdle⟩
  case range =>
    refine exec_refused h (act := tempoNowRequest) rfl (rowNow ht) ?_
    unfold tempoNowRequest
    rcases hout with hout | hout
    · have : decide (byteAt [timing, b0, b1, b2, b3] 0 = 0) = false := decide_eq_false hout
      rw [this]
    · rw [absent hout]
      split <;> first | rfl | contradiction
  case rangeNext =>
    exact exec_refused h (act := tempoNextRequest) rfl (rowNext ht) (by rw [tempoNextRequest, absent h0])
  case stopped => exact atOnce ht h0 _ (settled_stopped (s := withoutHead s) hst _)
  case moving =>
    have changed := changePeriod_moving (s := tempoDropped (withoutHead s)) hst rfl hbelow (clampPeriod s (long b0 b1 b2 b3))
    have settled := settle_of_not_held (s := changePeriod (tempoDropped (withoutHead s)) (clampPeriod s (long b0 b1 b2 b3)))
      (by rw [changed, raiseHighest_clock]; exact fun he => nomatch hst.symm.trans he)
    have evolves := (evolves_dropPending (withoutHead s)).trans (evolves_changePeriod (periodFits_clamp (tempoDropped (withoutHead s)) (long b0 b1 b2 b3)))
    refine ⟨_, atOnce ht h0 _ settled, evolves.sameScoreAndTables (by simp), ?_⟩
    rw [changed, raiseHighest_clock]
    obtain ⟨hprot, hdet, hsched, hfol⟩ := raised_frame ((tempoDropped (withoutHead s)).withClock _) _ _
    exact ⟨hprot, hdet, hsched, hfol, rfl⟩
  case held =>
    have changed := changePeriod_held (s := tempoDropped (withoutHead s)) hst rfl hstop (clampPeriod s (long b0 b1 b2 b3))
    have settled := settle_of_not_playing (s := changePeriod (tempoDropped (withoutHead s)) (clampPeriod s (long b0 b1 b2 b3)))
      (by rw [playing, changed, raiseHighest_follower]; exact hplay)
    have here : position s = s.clock.x0 := position_of_not_moving (by rw [hst]; nofun)
    have evolves := (evolves_dropPending (withoutHead s)).trans (evolves_changePeriod (periodFits_clamp (tempoDropped (withoutHead s)) (long b0 b1 b2 b3)))
    refine ⟨_, atOnce ht h0 _ settled, evolves.sameScoreAndTables (by simp), ?_⟩
    rw [changed, raiseHighest_clock, here]
    obtain ⟨hprot, hdet, hsched, hfol⟩ := raised_frame ((tempoDropped (withoutHead s)).withClock _) _ _
    exact ⟨hprot, hdet, hsched, hfol, rfl⟩
  case next =>
    refine exec_done h (act := tempoNextRequest) rfl (rowNext ht) ?_
    rw [tempoNextRequest, period rfl h0]
    exact if_neg hplay
  case nextIdle =>
    refine exec_done h (act := tempoNextRequest) rfl (rowNext ht) ?_
    rw [tempoNextRequest, period rfl h0]
    refine (if_pos hplay).trans ?_
    rw [tempoAtOnce_eq, settled_stopped (s := withoutHead s) hst]
    rfl

end Machine

end Sys2Proof
end

section
/-! PROOF. How an entry begins (R101): the stop points ahead of its start, the clock that runs on, and the rows that start entry 0, end a
wait or end a hold (O21, O23, O26). -/

namespace Sys2Proof

namespace Machine

set_option Elab.async false

/-! ### A clock that runs on (R69, R74) -/

theorem crossings_of_le {s : State} {x : Pos} (h : x ≤ s.clock.highest) : crossings s x = 0 := if_neg (not_lt.mpr h)

theorem beatReported_zero (s : State) : beatReported s 0 = false := by simp [beatReported]

/-- A rise that does not pass the highest position changes nothing. -/
theorem raiseHighest_of_le {s : State} {x : Pos} (h : x ≤ s.clock.highest) (t : PartTime) : raiseHighest s x t = s := by
  simp only [raiseHighest, crossings_of_le h, beatReported_zero, max_eq_left h, BitVec.add_zero, Bool.false_eq_true, if_false]
  rfl

theorem riseTo_of_le {s : State} {x : Pos} (h : x ≤ s.clock.highest) (t : PartTime) (now : Pos) : riseTo s x t now = s := by
  simp only [riseTo, crossings_of_le h, if_true, raiseHighest_of_le h]

/-- A HELD clock whose stop point lies ahead runs on. -/
theorem resumeClock_runs {s : State} (hh : s.clock.state = .held) (hle : s.clock.x0 ≤ s.clock.highest)
    (hs : ∀ st, s.follower.stop = some st → s.clock.x0 < st.pos) :
    resumeClock s = s.withClock { s.clock with state := .moving, t0 := s.partTime } := by
  have here : position s = s.clock.x0 := position_of_not_moving (by rw [hh]; nofun)
  have hraw : rawAt { s.clock with t0 := s.partTime } s.partTime = s.clock.x0 := rawAt_now _
  have installed : installAnchor s s.partTime s.clock.x0 s.clock.period =
      s.withClock { s.clock with state := .moving, t0 := s.partTime } := by
    unfold installAnchor
    cases hstop : s.follower.stop with
    | none => rfl
    | some st => exact if_neg (by rw [hraw]; exact not_le.mpr (hs st hstop))
  have now : position (s.withClock { s.clock with state := .moving, t0 := s.partTime }) = s.clock.x0 := by
    change cutAt s.follower.stop (rawAt _ s.partTime) = _
    cases hstop : s.follower.stop with
    | none => exact rawAt_now _
    | some st => exact (congrArg (min · st.pos) (rawAt_now _)).trans (min_eq_left (hs st hstop).le)
  rw [resumeClock, hh]
  simp only [reanchor]
  rw [installed, now, here, max_self]
  exact riseTo_of_le (s := s.withClock { s.clock with state := .moving, t0 := s.partTime }) hle _ _

/-! ### Stop points ahead (R103) -/

/-- Every hold of an entry lies beyond its origin, when no step is without duration. -/
theorem holdsOf_above {s : State} {i : EntryNo} {o h : Pos} (hlen : phraseLength s (planEntry s i).list ≠ 0)
    (hdur : ∀ n, 0 < (stepRec s n).music.duration) (hh : h ∈ holdsOf s i o) : o < h := by
  obtain ⟨n, -, rfl⟩ := List.mem_map.mp hh
  have hd := hdur n
  have : 0 < playedEnd s i n := by unfold playedEnd; omega
  have : (0 : Int) < (playedEnd s i n : Int) * Config.tick := Int.mul_pos (by exact_mod_cast this) (by decide)
  exact lt_add_of_pos_right o this

/-- The stop point formed is a hold still open or the phrase end. -/
theorem chosenStop_above {s : State} {x : Pos} {st : StopPoint} (hst : chosenStop s = some st)
    (hholds : ∀ h ∈ openHolds s (position s), x < h) (hend : ∀ e, phraseEnd s = some e → x < e) : x < st.pos := by
  unfold chosenStop at hst
  split at hst
  · rename_i hl
    obtain rfl := Option.some.inj hst
    exact hholds _ (leastPos_mem hl)
  · rename_i he _
    obtain rfl := Option.some.inj hst
    exact hend _ he
  · rename_i he _
    split at hst
    · obtain rfl := Option.some.inj hst
      exact hend _ he
    · cases hst
  · cases hst

theorem formStop_of_playing {s : State} (h : playing s = true) :
    formStop s = s.withFollower { s.follower with stop := chosenStop s } := if_pos h

/-- The state whose stop point the beginning of an entry forms. -/
def begun (s : State) (o x : Pos) : State :=
  releasePassed ((s.withFollower { s.follower with
      play := if x < o then .gap else .running, origin := o, timer := none, checkHeld := false, stop := none
      pointsCurrent := some (s.follower.pointsCurrent.getD 0) }).withSched { s.sched with
        walkCurrent := some (s.sched.walkCurrent.getD 0) })

theorem beginAt_eq (s : State) (o x : Pos) : beginAt s o x = formStop (begun s o x) := rfl

theorem releasePassed_follower (s : State) :
    (releasePassed s).follower = { s.follower with released := (releasePassed s).follower.released } := by
  unfold releasePassed
  split
  · split <;> rfl
  · rfl

/-- What the beginning of an entry leaves of the follower: its released holds and its stop point apart. -/
theorem beginAt_follower (s : State) (o x : Pos) : (beginAt s o x).follower = { s.follower with
    play := if x < o then .gap else .running, origin := o, timer := none, checkHeld := false
    pointsCurrent := some (s.follower.pointsCurrent.getD 0)
    released := (beginAt s o x).follower.released, stop := (beginAt s o x).follower.stop } := by
  rw [beginAt_eq, formStop_follower, begun, releasePassed_follower]
  rfl

theorem beginAt_sched (s : State) (o x : Pos) :
    (beginAt s o x).sched = { s.sched with walkCurrent := some (s.sched.walkCurrent.getD 0) } := by
  simp [beginAt]

theorem playing_begun (s : State) (o x : Pos) : playing (begun s o x) = true := by
  unfold playing begun
  rw [releasePassed_follower]
  dsimp only [State.withSched_follower, State.withFollower_follower]
  split <;> rfl

/-- An entry begun with no next entry engaged has its stop point ahead of its start. -/
theorem beginAt_stop_above {s : State} {i : EntryNo} {o x : Pos} (hc : s.follower.current = some i) (hn : s.follower.next = none)
    (hox : x ≤ o) (hlen : phraseLength s (planEntry s i).list ≠ 0) (hdur : ∀ n, 0 < (stepRec s n).music.duration)
    {st : StopPoint} (hst : (beginAt s o x).follower.stop = some st) : x < st.pos := by
  rw [beginAt_eq, formStop_of_playing (playing_begun s o x)] at hst
  have hfol : (begun s o x).follower.current = some i ∧ (begun s o x).follower.next = none ∧ (begun s o x).follower.origin = o ∧
      (begun s o x).follower.lockSet = s.follower.lockSet := by
    unfold begun
    rw [releasePassed_follower]
    exact ⟨hc, hn, rfl, rfl⟩
  obtain ⟨hc', hn', ho', -⟩ := hfol
  have hstore : (begun s o x).store = s.store := by simp [begun]
  have htables : (begun s o x).tables = s.tables := by simp [begun]
  have hplan : planEntry (begun s o x) i = planEntry s i := by rw [planEntry, htables]; rfl
  have hlen' : phraseLength (begun s o x) (planEntry (begun s o x) i).list ≠ 0 := by
    rw [hplan, phraseLength, hstore]; exact hlen
  have hdur' : ∀ n, 0 < (stepRec (begun s o x) n).music.duration := fun n => by rw [stepRec, hstore]; exact hdur n
  refine chosenStop_above hst (fun h hh => ?_) fun e he => ?_
  · unfold openHolds engagedIndex at hh
    rw [hc', hn'] at hh
    simp only [List.append_nil] at hh
    have hh := (List.mem_filter.mp hh).1
    split at hh
    · rw [ho'] at hh
      exact lt_of_le_of_lt hox (holdsOf_above hlen' hdur' hh)
    · cases hh
  · unfold phraseEnd at he
    rw [hc', ho'] at he
    dsimp only at he
    split at he
    · obtain rfl := Option.some.inj he
      have : (0 : Int) < (phraseLength (begun s o x) (planEntry (begun s o x) i).list : Int) * Config.tick :=
        Int.mul_pos (by exact_mod_cast Nat.pos_of_ne_zero hlen') (by decide)
      exact lt_of_le_of_lt hox (lt_add_of_pos_right o this)
    · cases he

/-- However often the follower looks, it is told of nothing while the clock is not HELD. -/
theorem settleFor_of_not_held (n : Nat) {s : State} (h : s.clock.state ≠ .held) : settleFor n s = s := by
  cases n with
  | zero => rfl
  | succ n =>
    unfold settleFor
    split
    · rename_i h1 _ _; exact absurd h1 h
    · rfl

/-- However often the follower looks, it is told of nothing unless play is RUNNING or GAP. -/
theorem settleFor_of_not_playing (n : Nat) {s : State} (h : playing s = false) : settleFor n s = s := by
  cases n with
  | zero => rfl
  | succ n =>
    unfold settleFor
    split
    · rename_i _ h1 _; rw [h] at h1; cases h1
    · rfl

/-- An entry begun ORGAN-LED from a HELD clock, with no next entry engaged and nothing behind its start, runs on from there. -/
theorem beginOrgan_runs (n : Nat) {s : State} {i : EntryNo} {o : Pos} (m : Manner) (hc : s.follower.current = some i)
    (hn : s.follower.next = none) (hh : s.clock.state = .held) (hle : s.clock.x0 ≤ s.clock.highest) (hox : s.clock.x0 ≤ o)
    (hlen : phraseLength s (planEntry s i).list ≠ 0) (hdur : ∀ n, 0 < (stepRec s n).music.duration) :
    settleFor n (beginOrgan s i o s.clock.x0 m) = waitingSwitches ((postPhrase (beginAt s o s.clock.x0) i m).withClock
      { s.clock with state := .moving, t0 := s.partTime }) := by
  have hclock : (postPhrase (beginAt s o s.clock.x0) i m).clock = s.clock := by simp
  have htime : (postPhrase (beginAt s o s.clock.x0) i m).partTime = s.partTime := by simp
  have hfol : (postPhrase (beginAt s o s.clock.x0) i m).follower = (beginAt s o s.clock.x0).follower := by simp
  have resumed : resumeClock (postPhrase (beginAt s o s.clock.x0) i m) = (postPhrase (beginAt s o s.clock.x0) i m).withClock
      { s.clock with state := .moving, t0 := s.partTime } := by
    rw [resumeClock_runs (by rw [hclock]; exact hh) (by rw [hclock]; exact hle) fun st hst => ?_, hclock, htime]
    rw [hclock]
    rw [hfol] at hst
    exact beginAt_stop_above hc hn hox hlen hdur hst
  rw [beginOrgan, resumed]
  exact settleFor_of_not_held n (by simp)

/-! ### What the beginning of entries leaves of the follower -/

/-- Entries have begun or ended between `f` and `g`: mode, confidence and held onsets stand, and the window list but for its emptying. -/
structure EntryFrame (f g : Follower) : Prop where
  mode : g.mode = f.mode
  pendingMode : g.pendingMode = f.pendingMode
  counter : g.counter = f.counter
  conf : g.conf = f.conf
  run : g.run = f.run
  heldOnsets : g.heldOnsets = f.heldOnsets
  window : g.window = f.window ∨ g.window = []

namespace EntryFrame

theorem refl (f : Follower) : EntryFrame f f := ⟨rfl, rfl, rfl, rfl, rfl, rfl, .inl rfl⟩

theorem trans {f g h : Follower} (h1 : EntryFrame f g) (h2 : EntryFrame g h) : EntryFrame f h where
  mode := h2.mode.trans h1.mode
  pendingMode := h2.pendingMode.trans h1.pendingMode
  counter := h2.counter.trans h1.counter
  conf := h2.conf.trans h1.conf
  run := h2.run.trans h1.run
  heldOnsets := h2.heldOnsets.trans h1.heldOnsets
  window := h2.window.elim (fun h => h1.window.imp h.trans h.trans) .inr

end EntryFrame

theorem entryFrame_beginAt (s : State) (o x : Pos) : EntryFrame s.follower (beginAt s o x).follower := by
  rw [beginAt_follower]; exact ⟨rfl, rfl, rfl, rfl, rfl, rfl, .inl rfl⟩

theorem beginOrgan_follower (s : State) (i : EntryNo) (o x : Pos) (m : Manner) :
    (beginOrgan s i o x m).follower = (beginAt s o x).follower := by simp [beginOrgan]

theorem entryFrame_beginOrgan (s : State) (i : EntryNo) (o x : Pos) (m : Manner) :
    EntryFrame s.follower (beginOrgan s i o x m).follower := by
  rw [beginOrgan_follower]; exact entryFrame_beginAt s o x

theorem entryFrame_enterEntry (s : State) (i : EntryNo) (x : Pos) : EntryFrame s.follower (enterEntry s i x).follower := by
  have current : EntryFrame s.follower (applyEntryTempo (makeCurrent s i) i).follower := by
    have : (applyEntryTempo (makeCurrent s i) i).follower = (makeCurrent s i).follower := by simp
    rw [this]
    exact ⟨rfl, rfl, rfl, rfl, rfl, rfl, .inl rfl⟩
  simp only [enterEntry]
  split
  · exact current.trans (entryFrame_beginOrgan _ _ _ _ _)
  · have : (waitingSwitches (enterWaiting (applyEntryTempo (makeCurrent s i) i) i x)).follower =
        (enterWaiting (applyEntryTempo (makeCurrent s i) i) i x).follower := by simp
    rw [this]
    exact current.trans ⟨rfl, rfl, rfl, rfl, rfl, rfl, .inl rfl⟩

theorem enterHolding_follower (s : State) (x : Pos) : (enterHolding s x).follower = { s.follower with
    play := .holding, stop := some { pos := x, kind := .hold, reachedAt := some s.partTime }
    timer := (enterHolding s x).follower.timer } := by
  simp [enterHolding]

theorem entryFrame_settleFor (n : Nat) (s : State) : EntryFrame s.follower (settleFor n s).follower := by
  induction n generalizing s with
  | zero => exact .refl _
  | succ n ih =>
    unfold settleFor
    split
    · split
      · split
        · exact (entryFrame_enterEntry _ _ _).trans (ih _)
        · rw [enterHolding_follower]; exact ⟨rfl, rfl, rfl, rfl, rfl, rfl, .inl rfl⟩
      · exact ⟨rfl, rfl, rfl, rfl, rfl, rfl, .inr rfl⟩
      · exact (entryFrame_enterEntry _ _ _).trans (ih _)
      · exact ⟨rfl, rfl, rfl, rfl, rfl, rfl, .inr rfl⟩
    · exact .refl _

theorem entryFrame_settle (s : State) : EntryFrame s.follower (settle s).follower := entryFrame_settleFor 65 s

/-! ### The end of a wait (R116) -/

theorem endWait_eq {s : State} {i : EntryNo} (hc : s.follower.current = some i) (m : Manner) :
    endWait s m = settle (beginOrgan s i s.clock.x0 s.clock.x0 m) := by
  rw [endWait, hc]

theorem entryFrame_endWait (s : State) (m : Manner) : EntryFrame s.follower (endWait s m).follower := by
  unfold endWait
  split
  · exact (entryFrame_beginOrgan _ _ _ _ _).trans (entryFrame_settle _)
  · exact .refl _

/-- The PHRASE alert of an entry begun is posted, whatever follows. -/
theorem phrase_mem_of_evolves {s t : State} {i : EntryNo} {m : Manner} (hroom : s.handler.alerts.length < 16)
    (h : Evolves (postPhrase s i m) t) : .phrase i (planEntry s i).start m s.partTime ∈ t.handler.alerts := by
  refine h.handler.mem _ ?_
  rw [postPhrase, postAlert_of_room hroom]
  exact List.mem_append_right _ List.mem_cons_self

theorem phrase_mem_endWait {s : State} {i : EntryNo} (hc : s.follower.current = some i) (m : Manner)
    (hroom : s.handler.alerts.length < 16) : .phrase i (planEntry s i).start m s.partTime ∈ (endWait s m).handler.alerts := by
  rw [endWait_eq hc, beginOrgan]
  have hroom' : (beginAt s s.clock.x0 s.clock.x0).handler.alerts.length < 16 := by
    have : (beginAt s s.clock.x0 s.clock.x0).handler = s.handler := by simp
    rwa [this]
  have hm := phrase_mem_of_evolves (i := i) (m := m) hroom'
    ((evolves_resumeClock _).trans ((evolves_waitingSwitches _).trans (evolves_settle _)))
  have hp : planEntry (beginAt s s.clock.x0 s.clock.x0) i = planEntry s i := by simp [planEntry]
  have ht : (beginAt s s.clock.x0 s.clock.x0).partTime = s.partTime := by simp
  rwa [hp, ht] at hm

/-- A waiting entry whose wait ends without the choir runs from the position of the wait. -/
theorem endWait_runs {s : State} {i : EntryNo} (m : Manner) (hc : s.follower.current = some i) (hn : s.follower.next = none)
    (hh : s.clock.state = .held) (hle : s.clock.x0 ≤ s.clock.highest) (hlen : phraseLength s (planEntry s i).list ≠ 0)
    (hdur : ∀ n, 0 < (stepRec s n).music.duration) :
    (endWait s m).follower.play = .running ∧ (endWait s m).follower.origin = s.clock.x0 ∧ (endWait s m).follower.timer = none ∧
      (endWait s m).follower.current = some i ∧ (endWait s m).clock = { s.clock with state := .moving, t0 := s.partTime } := by
  rw [endWait_eq hc, settle, beginOrgan_runs 65 m hc hn hh hle le_rfl hlen hdur]
  have hfol : (waitingSwitches ((postPhrase (beginAt s s.clock.x0 s.clock.x0) i m).withClock
      { s.clock with state := .moving, t0 := s.partTime })).follower = (beginAt s s.clock.x0 s.clock.x0).follower := by simp
  rw [hfol, beginAt_follower]
  exact ⟨if_neg (lt_irrefl _), rfl, rfl, hc, by simp⟩

/-! ### The end of a hold (R118) -/

/-- A hold that ends inside the phrase: its position joins the released holds and the clock runs on. -/
theorem releaseHold_in_phrase {s : State} (hh : s.clock.state = .held) (hin : ∀ e, phraseEnd s = some e → s.clock.x0 < e)
    (hle : s.clock.x0 ≤ s.clock.highest) :
    (releaseHold s = (s.withClock { s.clock with state := .moving, t0 := s.partTime }).withFollower { s.follower with
      play := .running, timer := none, released := s.clock.x0 :: s.follower.released, stop := (releaseHold s).follower.stop }) ∧
    ∀ st, (releaseHold s).follower.stop = some st → s.clock.x0 < st.pos := by
  have notAtEnd : atPhraseEnd s s.clock.x0 = false := by
    unfold atPhraseEnd
    split
    · rename_i e he; exact decide_eq_false (not_le.mpr (hin e he))
    · rfl
  let u := withPlay (dropHold s) .running
  have above : ∀ st, (formStop u).follower.stop = some st → s.clock.x0 < st.pos := fun st hst => by
    rw [formStop_of_playing (s := u) rfl] at hst
    have hpos : position u = s.clock.x0 := position_of_not_moving (s := u) (by rw [show u.clock = s.clock from rfl, hh]; nofun)
    refine chosenStop_above (s := u) hst (fun h hm => ?_) fun e he => hin e he
    obtain ⟨-, hopen⟩ := List.mem_filter.mp hm
    rw [hpos] at hopen
    simp only [Bool.and_eq_true, decide_eq_true_eq, Bool.not_eq_true'] at hopen
    have hne : h ≠ s.clock.x0 := fun he => by
      have : u.follower.released.contains h = true := by simp [u, withPlay, dropHold, he]
      rw [this] at hopen
      exact nomatch hopen.2
    exact lt_of_le_of_ne hopen.1 (Ne.symm hne)
  have hclock : (formStop u).clock = s.clock := by simp [u]
  have htime : (formStop u).partTime = s.partTime := by simp [u]
  have released : releaseHold s = (formStop u).withClock { s.clock with state := .moving, t0 := s.partTime } := by
    rw [releaseHold, notAtEnd]
    change settle (resumeClock (formStop u)) = _
    rw [resumeClock_runs (by rw [hclock]; exact hh) (by rw [hclock]; exact hle) (by rw [hclock]; exact above), hclock, htime]
    exact settle_of_not_held (by simp)
  rw [released]
  refine ⟨?_, above⟩
  rw [formStop_of_playing (s := u) rfl]
  rfl

/-- A hold at the end of the last phrase ends in ENDING. -/
theorem releaseHold_of_no_next {s : State} {e : Pos} (he : phraseEnd s = some e) (hle : e ≤ s.clock.x0) (hn : nextIndex s = none) :
    releaseHold s = s.withFollower { s.follower with
      play := .ending, timer := none, window := [], checkHeld := false, released := s.clock.x0 :: s.follower.released
      stop := some { pos := s.clock.x0, kind := .end_, reachedAt := some s.partTime } } := by
  have atEnd : atPhraseEnd s s.clock.x0 = true := by rw [atPhraseEnd, he]; exact decide_eq_true hle
  rw [releaseHold, atEnd, hn]
  rfl

/-! ### An entry becomes current (R101) -/

/-- The lock set of an entry just become current: its list, unless it is in a command in flight and was not locked before. -/
theorem makeCurrent_follower (s : State) (j : EntryNo) : (makeCurrent s j).follower = { s.follower with
    current := some j, next := none, finish := finishOnStart s.follower.finish, released := [], checkHeld := false
    pointsCurrent := s.follower.pointsNext, pointsNext := none
    lockSet := [(planEntry s j).list].filter fun l => listLocked s l || !involved s l } := rfl

theorem readable_makeCurrent {s : State} {j : EntryNo} (h : involved s (planEntry s j).list = false) :
    readable (makeCurrent s j) j = true := by
  rw [readable, listLocked, makeCurrent_follower]
  have hp : planEntry (makeCurrent s j) j = planEntry s j := by simp [planEntry]
  rw [hp]
  simp [h]

theorem hasPoints_congr {s t : State} (hs : t.store = s.store) (ht : t.tables = s.tables) (j : EntryNo) :
    hasPoints t j = hasPoints s j := by
  have hp : planEntry t j = planEntry s j := by rw [planEntry, ht]; rfl
  have hrec : ∀ n, stepRec t n = stepRec s n := fun n => by rw [stepRec, hs]; rfl
  have he : expected t j = expected s j := funext fun n => by
    rw [expected, expected, takesPart, takesPart, hrec, hp, phraseLength, phraseLength, hs]
  rw [hasPoints, hasPoints, he, entryChain, entryChain, chain, chain, hs, hp]

theorem startKind_congr {s t : State} (hm : t.follower.mode = s.follower.mode) (e : PlanEntry) : startKind t e = startKind s e := by
  rw [startKind, startKind, hm]

theorem startKind_choirLed (s : State) (e : PlanEntry) :
    startKind s e = .choirLed ↔ e.start = .choirLed ∧ s.follower.mode ≠ .steady := by
  unfold startKind
  split
  · rename_i h
    simp [h.2]
  · rename_i h
    exact ⟨fun hc => ⟨hc, fun hm => h ⟨hc, hm⟩⟩, fun hc => hc.1⟩

/-- The choir is to start entry `j` from position `x`: it is CHOIR-LED, not engaged, and the mode is not STEADY. -/
def ChoirStarts (s : State) (j : EntryNo) : Prop :=
  s.follower.next = none ∧ (planEntry s j).start = .choirLed ∧ s.follower.mode ≠ .steady

/-- The entry current, its tempo applied, before it is begun. -/
def entered (s : State) (j : EntryNo) : State := applyEntryTempo (makeCurrent s j) j

theorem entered_follower (s : State) (j : EntryNo) : (entered s j).follower = (makeCurrent s j).follower := by simp [entered]

theorem planEntry_entered (s : State) (j i : EntryNo) : planEntry (entered s j) i = planEntry s i := by simp [entered, planEntry]

theorem enterEntry_waits {s : State} {j : EntryNo} (h : ChoirStarts s j) (hp : hasPoints s j = true) (x : Pos) :
    enterEntry s j x = waitingSwitches (enterWaiting (entered s j) j x) := by
  obtain ⟨hn, hc, hm⟩ := h
  have hmode : (entered s j).follower.mode = s.follower.mode := by rw [entered_follower]; rfl
  have hk : startKind (entered s j) (planEntry (entered s j) j) = .choirLed := by
    rw [planEntry_entered, startKind_congr hmode, startKind_choirLed]
    exact ⟨hc, hm⟩
  have hpts : hasPoints (entered s j) j = true := by
    rw [hasPoints_congr (s := s) (by simp [entered]) (by simp [entered])]; exact hp
  have horigin : originFor (entered s j) j s.follower.next x = none := by
    rw [hn, originFor]
    exact if_pos ⟨hk, by rw [hpts, Bool.or_true]⟩
  simp only [enterEntry]
  change (match originFor (entered s j) j s.follower.next x with | some o => _ | none => _) = _
  rw [horigin]
  rfl

/-- The origin of an entry that the choir does not start. -/
def nextOrigin (s : State) (j : EntryNo) (x : Pos) : Pos :=
  match s.follower.next with
  | some g => g.origin
  | none => x + gapOf (planEntry s j)

theorem enterEntry_organ {s : State} {j : EntryNo}
    (h : ¬ChoirStarts s j ∨ (involved s (planEntry s j).list = false ∧ hasPoints s j = false)) (x : Pos) :
    enterEntry s j x = beginOrgan (entered s j) j (nextOrigin s j x) x .organ := by
  have horigin : originFor (entered s j) j s.follower.next x = some (nextOrigin s j x) := by
    cases hn : s.follower.next with
    | some g => rw [originFor, nextOrigin, hn]
    | none =>
      rw [originFor, nextOrigin, hn]
      refine (if_neg ?_).trans (by rw [planEntry_entered])
      rintro ⟨hk, hr⟩
      have hmode : (entered s j).follower.mode = s.follower.mode := by rw [entered_follower]; rfl
      rw [planEntry_entered, startKind_congr hmode, startKind_choirLed] at hk
      rcases h with h | ⟨hi, hp⟩
      · exact h ⟨hn, hk⟩
      · have hread : readable (entered s j) j = true := by
          have := readable_makeCurrent hi
          rw [readable, listLocked] at this ⊢
          rwa [entered_follower, planEntry_entered, ← show planEntry (makeCurrent s j) j = planEntry s j by simp [planEntry]]
        have hpts : hasPoints (entered s j) j = false := by
          rw [hasPoints_congr (s := s) (by simp [entered]) (by simp [entered])]; exact hp
        rw [hread, hpts] at hr
        exact Bool.false_ne_true hr
  simp only [enterEntry]
  change (match originFor (entered s j) j s.follower.next x with | some o => _ | none => _) = _
  rw [horigin]
  rfl

theorem entered_of_no_tempo {s : State} {j : EntryNo} (h : (planEntry s j).tempo = none) : entered s j = makeCurrent s j := by
  have hp : planEntry (makeCurrent s j) j = planEntry s j := by simp [planEntry]
  rw [entered, applyEntryTempo, hp, h]

/-- An entry begun ORGAN-LED at a HELD clock, at or before its origin, with no tempo of its own, runs on from there. -/
theorem enterEntry_runs (n : Nat) {s : State} {j : EntryNo}
    (h : ¬ChoirStarts s j ∨ (involved s (planEntry s j).list = false ∧ hasPoints s j = false)) (hh : s.clock.state = .held)
    (hle : s.clock.x0 ≤ s.clock.highest) (hox : s.clock.x0 ≤ nextOrigin s j s.clock.x0) (ht : (planEntry s j).tempo = none)
    (hlen : phraseLength s (planEntry s j).list ≠ 0) (hdur : ∀ n, 0 < (stepRec s n).music.duration) :
    settleFor n (enterEntry s j s.clock.x0) = waitingSwitches
      ((postPhrase (beginAt (makeCurrent s j) (nextOrigin s j s.clock.x0) s.clock.x0) j .organ).withClock
        { s.clock with state := .moving, t0 := s.partTime }) := by
  have hclock : (makeCurrent s j).clock = s.clock := by simp
  have hp : planEntry (makeCurrent s j) j = planEntry s j := by simp [planEntry]
  have hstore : (makeCurrent s j).store = s.store := by simp
  have runs := beginOrgan_runs n (s := makeCurrent s j) (i := j) (o := nextOrigin s j s.clock.x0) .organ rfl rfl
    (by rw [hclock]; exact hh) (by rw [hclock]; exact hle) (by rw [hclock]; exact hox)
    (by rw [phraseLength, hstore, hp]; exact hlen) fun n => by rw [stepRec, hstore]; exact hdur n
  rw [hclock, show (makeCurrent s j).partTime = s.partTime by simp] at runs
  rw [enterEntry_organ h, entered_of_no_tempo ht, runs]

/-- What an entry that runs on from a HELD clock leaves. -/
theorem enterEntry_runs_spec (n : Nat) {s : State} {j : EntryNo}
    (h : ¬ChoirStarts s j ∨ (involved s (planEntry s j).list = false ∧ hasPoints s j = false)) (hh : s.clock.state = .held)
    (hle : s.clock.x0 ≤ s.clock.highest) (hox : s.clock.x0 ≤ nextOrigin s j s.clock.x0) (ht : (planEntry s j).tempo = none)
    (hlen : phraseLength s (planEntry s j).list ≠ 0) (hdur : ∀ n, 0 < (stepRec s n).music.duration) :
    let t := settleFor n (enterEntry s j s.clock.x0)
    let o := nextOrigin s j s.clock.x0
    t.follower.current = some j ∧ t.follower.next = none ∧ t.follower.origin = o ∧
      t.follower.play = (if s.clock.x0 < o then .gap else .running) ∧ t.follower.timer = none ∧
      t.clock = { s.clock with state := .moving, t0 := s.partTime } ∧
      (s.handler.alerts.length < 16 → .phrase j (planEntry s j).start .organ s.partTime ∈ t.handler.alerts) := by
  dsimp only
  rw [enterEntry_runs n h hh hle hox ht hlen hdur]
  let u := beginAt (makeCurrent s j) (nextOrigin s j s.clock.x0) s.clock.x0
  have hfol : (waitingSwitches ((postPhrase u j .organ).withClock { s.clock with state := .moving, t0 := s.partTime })).follower =
      u.follower := by simp
  have hf := beginAt_follower (makeCurrent s j) (nextOrigin s j s.clock.x0) s.clock.x0
  rw [hfol, hf]
  refine ⟨rfl, rfl, rfl, rfl, rfl, by simp, fun hroom => ?_⟩
  have hroom' : u.handler.alerts.length < 16 := by
    have : u.handler = s.handler := by simp [u]
    rwa [this]
  have moved : Evolves (postPhrase u j .organ) ((postPhrase u j .organ).withClock { s.clock with state := .moving, t0 := s.partTime }) :=
    evolves_withClock (by
      have : u.clock = s.clock := by simp [u]
      have hsame := periodFits_same (postPhrase u j .organ)
      rw [show (postPhrase u j .organ).clock = s.clock by simp [u]] at hsame
      exact hsame) (.inl (by simp [u]))
  have hm := phrase_mem_of_evolves (i := j) (m := .organ) hroom' (moved.trans (evolves_waitingSwitches _))
  have hp : planEntry u j = planEntry s j := by simp [planEntry, u]
  have hpt : u.partTime = s.partTime := by simp [u]
  rwa [hp, hpt] at hm

/-- An entry the choir is to start waits. -/
theorem enterEntry_waits_spec (n : Nat) {s : State} {j : EntryNo} (h : ChoirStarts s j) (hp : hasPoints s j = true) (x : Pos) :
    let t := settleFor n (enterEntry s j x)
    t.follower.current = some j ∧ t.follower.next = none ∧ t.follower.play = .waiting ∧
      t.clock = { (entered s j).clock with state := .held, t0 := s.partTime, x0 := x } ∧
      t.follower.stop = some { pos := x, kind := .wait, reachedAt := some s.partTime } ∧
      t.follower.timer = some (after s.partTime (((planEntry s j).leadIn * t.clock.period : Nat) : Int)) ∧
      t.follower.origin = s.follower.origin ∧ t.follower.window = s.follower.window := by
  dsimp only
  let w := enterWaiting (entered s j) j x
  have hfol : (waitingSwitches w).follower = w.follower := by simp
  have hclk : (waitingSwitches w).clock = w.clock := by simp
  have hplay : playing (waitingSwitches w) = false := by rw [playing, hfol]; rfl
  have htime : (entered s j).partTime = s.partTime := by simp [entered]
  have kept : ∀ {α : Type} (f : Follower → α), f (entered s j).follower = f (makeCurrent s j).follower := fun f => by
    rw [entered_follower]
  rw [enterEntry_waits h hp, settleFor_of_not_playing n hplay, hfol, hclk]
  refine ⟨kept Follower.current, kept Follower.next, rfl, ?_, ?_, ?_, kept Follower.origin, kept Follower.window⟩
  · change Clock.mk _ (entered s j).partTime _ _ _ _ _ _ = _
    rw [htime]
  · change some (StopPoint.mk x .wait (some (entered s j).partTime)) = _
    rw [htime]
  · change some (after (entered s j).partTime (beatsSpan (entered s j) (planEntry (entered s j) j).leadIn)) = _
    rw [htime, planEntry_entered]
    rfl

/-- A hold at the phrase end begins the next entry there. -/
theorem begunAtHold_releaseHold {s : State} {e : Pos} {j : EntryNo} (he : phraseEnd s = some e) (hle : e ≤ s.clock.x0)
    (hj : nextIndex s = some j) : BegunAtHold s (releaseHold s) j := by
  have atEnd : atPhraseEnd s s.clock.x0 = true := by rw [atPhraseEnd, he]; exact decide_eq_true hle
  have released : releaseHold s = settle (enterEntry (dropHold s) j s.clock.x0) := by rw [releaseHold, atEnd, hj]; rfl
  unfold BegunAtHold
  rw [released]
  refine ⟨by simp, by simp, by simp, fun hchoir hpts => ?_, fun hnot hh hhigh hox ht hlen hdur => ?_⟩
  · obtain ⟨hcur, -, hplay, hclock, hstop, htimer, horigin, -⟩ := enterEntry_waits_spec 65 (s := dropHold s) hchoir hpts s.clock.x0
    exact ⟨hcur, hplay, congrArg Clock.state hclock, (congrArg Clock.x0 hclock).trans rfl, hstop, htimer, horigin⟩
  · exact enterEntry_runs_spec 65 (s := dropHold s) hnot hh hhigh hox ht hlen hdur

/-! ### RELEASE (R118) -/

theorem exec_release {s : State} {tag : Byte} (h : Taking s tag 68 []) {t : State} (ht : releasePlay (withoutHead s) = t) :
    exec .release s = .next (replied t tag 68 .done [byte t.follower.play.code]) :=
  exec_done h (act := releaseRequest) rfl rfl (by rw [releaseRequest, ht]; rfl)

theorem releasePlay_of_holding {s : State} (h : s.follower.play = .holding) : releasePlay s = releaseHold s := by
  rw [releasePlay, h]

theorem releasePlay_of_waiting {s : State} (h : s.follower.play = .waiting) : releasePlay s = endWait s .released := by
  rw [releasePlay, h]

theorem releasePlay_of_other {s : State} (h1 : s.follower.play ≠ .holding) (h2 : s.follower.play ≠ .waiting) : releasePlay s = s := by
  unfold releasePlay
  split
  · contradiction
  · contradiction
  · rfl

/-- Settles O26: outside hold and wait, in a hold inside the phrase and at its end, in a wait. -/
theorem releaseEndsAHoldOrAWait : Obligations.ReleaseEndsAHoldOrAWait := by
  unfold Obligations.ReleaseEndsAHoldOrAWait
  intro s tag h
  refine ⟨fun hh hw => ?other, fun hp hheld hin hle => ?inside, fun e hp he hle => ⟨fun j hj => ?begins, fun hn => ?ends⟩,
    fun i hp hheld hc => ?waiting⟩
  case other => exact exec_release h (releasePlay_of_other (s := withoutHead s) hh hw)
  case inside =>
    obtain ⟨heq, habove⟩ := releaseHold_in_phrase (s := withoutHead s) hheld hin hle
    have rel := releasePlay_of_holding (s := withoutHead s) hp
    refine ⟨releaseHold (withoutHead s), ?_, (evolves_releaseHold (withoutHead s)).sameScoreAndTables (by simp), by simp, by simp, ?_, ?_, ?_,
      ?_, habove⟩
    · refine (exec_release h rel).trans ?_
      have hplay : (releaseHold (withoutHead s)).follower.play = .running := by rw [heq]; rfl
      rw [hplay]
      rfl
    · rw [heq]; simp
    · rw [heq]; rfl
    · rw [heq]; rfl
    · rw [heq]; rfl
  case begins =>
    have begins := begunAtHold_releaseHold (s := withoutHead s) he hle hj
    exact ⟨releaseHold (withoutHead s), exec_release h (releasePlay_of_holding (s := withoutHead s) hp), begins⟩
  case ends =>
    have ends := releaseHold_of_no_next (s := withoutHead s) he hle hn
    exact exec_release h ((releasePlay_of_holding (s := withoutHead s) hp).trans ends)
  case waiting =>
    have frame := entryFrame_endWait (withoutHead s) .released
    refine ⟨endWait (withoutHead s) .released, exec_release h (releasePlay_of_waiting (s := withoutHead s) hp),
      (evolves_endWait (withoutHead s) .released).sameScoreAndTables (by simp), by simp, by simp, frame.counter, frame.conf,
      fun hroom => phrase_mem_endWait (s := withoutHead s) hc .released hroom, fun hn hle _ hlen hdur =>
        endWait_runs (s := withoutHead s) .released hc hn hheld hle hlen hdur⟩

end Machine

end Sys2Proof
end

section
/-! PROOF. MODE to OFF and to STEADY (O21) and START past its checks (O23). -/

namespace Sys2Proof

namespace Machine

set_option Elab.async false

/-! ### MODE to OFF (R124) -/

theorem requestMode_off {s : State} (h : s.follower.mode ≠ .off) : requestMode s .off = enterOff s := by
  rw [requestMode, if_neg (Ne.symm h)]

theorem requestMode_steady {s : State} (h : s.follower.mode ≠ .steady) : requestMode s .steady = enterSteady s := by
  rw [requestMode, if_neg (Ne.symm h)]

theorem exec_mode {s : State} {tag : Byte} {m : Mode} (h : Taking s tag 64 [byte m.code]) {t : State}
    (ht : requestMode (withoutHead s) m = t) : exec .mode s = .next (replied t tag 64 .done [byte (modeByte t)]) :=
  exec_done h (act := modeRequest) rfl rfl ((modeRequest_mode _ tag m).trans (by rw [ht]))

theorem registrationDropped_again {s t : State} (h : RegistrationDropped s t) : RegistrationDropped s (clearRegistration t) := by
  obtain ⟨-, -, -, hm⟩ := h
  rw [RegistrationDropped, clearRegistration_sched]
  exact ⟨rfl, rfl, rfl, fun hne => (evolves_clearRegistration t).relay.mem _ (hm hne)⟩

theorem Purged.cleared {s t : State} {d : Division} (h : Purged s t d) : Purged s (clearRegistration t) d :=
  h.later (by rw [clearRegistration_sched]) (by rw [clearRegistration_sched]) (.inr (by rw [clearRegistration_sched]))
    (by rw [clearRegistration_sched]) (by rw [clearRegistration_sched]) (evolves_clearRegistration t).relay.mem

/-- What a change to OFF leaves: the registration dropped, and play, if any, stopped. -/
theorem enterOff_spec (s : State) : RegistrationDropped s (enterOff s) ∧
    (s.follower.play = .idle → (enterOff s).clock = s.clock ∧ (enterOff s).handler = s.handler ∧
      (enterOff s).follower = { s.follower with mode := .off, pendingMode := none }) ∧
    (s.follower.play ≠ .idle → (enterOff s).clock = stoppedClock s ∧ (∀ d, Purged s (enterOff s) d) ∧
      (enterOff s).handler = ((stopAlerts s).foldl postAlert s).handler ∧
      (enterOff s).follower = { resting s.follower with mode := .off, pendingMode := none }) := by
  by_cases hp : s.follower.play = .idle
  · have off : enterOff s = (clearRegistration s).withFollower { s.follower with mode := .off, pendingMode := none } := by
      rw [enterOff, stopIfPlaying, if_pos hp]
      simp
    rw [off]
    exact ⟨registrationDropped_clear rfl, fun _ => ⟨by simp, by simp, rfl⟩, fun hne => absurd hp hne⟩
  · obtain ⟨hclock, hhandler, hfol⟩ := stopPlay_spec s
    have hreg := registrationDropped_stopPlay s
    have hpurged := purged_stopPlay s
    have off : enterOff s = (clearRegistration (stopPlay s)).withFollower
        { (clearRegistration (stopPlay s)).follower with mode := .off, pendingMode := none } := by
      rw [enterOff, stopIfPlaying, if_neg hp]
    rw [off]
    generalize stopPlay s = u at hclock hhandler hfol hreg hpurged ⊢
    have hfol' : (clearRegistration u).follower = resting s.follower := by simp [hfol]
    rw [hfol']
    refine ⟨registrationDropped_again hreg, fun h => absurd h hp, fun _ => ⟨?_, fun d => (hpurged d).cleared, ?_, rfl⟩⟩
    · rw [← hclock]; simp
    · rw [← hhandler]; simp

/-! ### MODE to STEADY (R123) -/

theorem not_choirStarts_of_steady {s : State} (h : s.follower.mode = .steady) (j : EntryNo) : ¬ChoirStarts s j := fun hc => hc.2.2 h

theorem beginOrgan_play (s : State) (i : EntryNo) (o x : Pos) (m : Manner) :
    (beginOrgan s i o x m).follower.play = if x < o then .gap else .running := by
  rw [beginOrgan_follower, beginAt_follower]

theorem beginOrgan_not_waiting (s : State) (i : EntryNo) (o x : Pos) (m : Manner) :
    (beginOrgan s i o x m).follower.play ≠ .waiting := by
  rw [beginOrgan_play]; split <;> nofun

/-- In STEADY no entry waits for the choir. -/
theorem settleFor_not_waiting (n : Nat) {s : State} (hm : s.follower.mode = .steady) (hp : s.follower.play ≠ .waiting) :
    (settleFor n s).follower.play ≠ .waiting := by
  have entry : ∀ j x, (enterEntry s j x).follower.mode = .steady ∧ (enterEntry s j x).follower.play ≠ .waiting := fun j x =>
    ⟨(entryFrame_enterEntry s j x).mode.trans hm, by
      rw [enterEntry_organ (.inl (not_choirStarts_of_steady hm j))]; exact beginOrgan_not_waiting _ _ _ _ _⟩
  induction n generalizing s with
  | zero => exact hp
  | succ n ih =>
    have next : ∀ j x, (settleFor n (enterEntry s j x)).follower.play ≠ .waiting := fun j x =>
      ih (entry j x).1 (entry j x).2 fun k y => ⟨(entryFrame_enterEntry _ k y).mode.trans (entry j x).1, by
        rw [enterEntry_organ (.inl (not_choirStarts_of_steady (entry j x).1 k))]; exact beginOrgan_not_waiting _ _ _ _ _⟩
    unfold settleFor
    split
    · split
      · split
        · exact next _ _
        · rw [enterHolding_follower]; nofun
      · exact Play.noConfusion
      · exact next _ _
      · exact Play.noConfusion
    · exact hp

theorem endWait_not_waiting {s : State} (hm : s.follower.mode = .steady) (hc : s.follower.current ≠ none) (m : Manner) :
    (endWait s m).follower.play ≠ .waiting := by
  obtain ⟨i, hc⟩ := Option.ne_none_iff_exists'.mp hc
  rw [endWait_eq hc]
  exact settleFor_not_waiting 65 ((entryFrame_beginOrgan _ _ _ _ _).mode.trans hm) (beginOrgan_not_waiting _ _ _ _ _)

/-- The change of mode of a MODE to STEADY, before a waiting entry is started. -/
def steadied (s : State) : State := enterMode (s.withFollower { s.follower with window := [], heldOnsets := [] }) .steady

theorem enterSteady_eq (s : State) :
    enterSteady s = if s.follower.play = .waiting then endWait (steadied s) .released else steadied s := rfl

theorem steadied_follower (s : State) : (steadied s).follower = { s.follower with
    window := [], heldOnsets := [], mode := .steady, pendingMode := none, stop := (steadied s).follower.stop } :=
  enterMode_follower _ _

theorem entryFrame_enterSteady (s : State) : EntryFrame (steadied s).follower (enterSteady s).follower := by
  rw [enterSteady_eq]
  split
  · exact entryFrame_endWait _ _
  · exact .refl _

theorem evolves_steadied_enterSteady (s : State) : Evolves (steadied s) (enterSteady s) := by
  rw [enterSteady_eq]
  exact .ite (fun _ => evolves_endWait _ _) fun _ => .refl _

/-- Settles O21. -/
theorem modeToOffAndToSteady : Obligations.ModeToOffAndToSteady := by
  unfold Obligations.ModeToOffAndToSteady
  intro s tag
  refine ⟨fun h hm => ?off, fun h hm => ?steady⟩
  case off =>
    obtain ⟨hreg, hidle, hplay⟩ := enterOff_spec (withoutHead s)
    have hmode : (enterOff (withoutHead s)).follower.mode = .off ∧ (enterOff (withoutHead s)).follower.pendingMode = none := ⟨rfl, rfl⟩
    refine ⟨enterOff (withoutHead s), ?_, (evolves_enterOff (withoutHead s)).sameScoreAndTables (by simp), hreg, by simp, by simp, hidle,
      hplay⟩
    refine (exec_mode (m := .off) h (requestMode_off (s := withoutHead s) hm)).trans ?_
    rw [modeByte_of_no_pending hmode.2, hmode.1]
    rfl
  case steady =>
    have frame := entryFrame_enterSteady (withoutHead s)
    have hfol := steadied_follower (withoutHead s)
    have moves := evolves_steadied_enterSteady (withoutHead s)
    have at_ : ∀ {α : Type} (f : Follower → α), f (steadied (withoutHead s)).follower = f { s.follower with
        window := [], heldOnsets := [], mode := .steady, pendingMode := none, stop := (steadied (withoutHead s)).follower.stop } :=
      fun f => congrArg f hfol
    have hwin : (enterSteady (withoutHead s)).follower.window = [] := frame.window.elim (fun h => h.trans (at_ Follower.window)) id
    have hpend : (enterSteady (withoutHead s)).follower.pendingMode = none := frame.pendingMode.trans (at_ Follower.pendingMode)
    have hmode : (enterSteady (withoutHead s)).follower.mode = .steady := frame.mode.trans (at_ Follower.mode)
    have waits : s.follower.play = .waiting → enterSteady (withoutHead s) = endWait (steadied (withoutHead s)) .released := fun hp =>
      if_pos hp
    have stays : s.follower.play ≠ .waiting → enterSteady (withoutHead s) = steadied (withoutHead s) := fun hp => if_neg hp
    refine ⟨enterSteady (withoutHead s), ?_, (evolves_enterSteady (withoutHead s)).sameScoreAndTables (by simp), by simp, by simp, hmode,
      hpend, hwin, frame.heldOnsets.trans (at_ Follower.heldOnsets), frame.counter.trans (at_ Follower.counter),
      frame.conf.trans (at_ Follower.conf), frame.run.trans (at_ Follower.run), fun hp => ?_, fun hp hc => ?_, fun hmer hp => ?_,
      fun hmer => ?_, fun i hp hh hc => ⟨fun hroom => ?_, fun hn hle hread hlen hdur => ?_⟩⟩
    · refine (exec_mode (m := .steady) h (requestMode_steady (s := withoutHead s) hm)).trans ?_
      rw [modeByte_of_no_pending hpend, hmode]
      rfl
    · rw [stays hp]
      exact ⟨at_ Follower.play, by simp [steadied], by simp [steadied]⟩
    · rw [waits hp]
      exact endWait_not_waiting (at_ Follower.mode) (fun h0 => hc ((at_ Follower.current).symm.trans h0)) _
    · rw [stays hp]
      exact (enterMode_relay_of_same (s := (withoutHead s).withFollower { s.follower with window := [], heldOnsets := [] })
        (m := .steady) hmer.symm).trans (by simp)
    · have marks := enterMode_marks (s := (withoutHead s).withFollower { s.follower with window := [], heldOnsets := [] })
        (m := .steady) (by
          have hmer : merges ((withoutHead s).withFollower { s.follower with window := [], heldOnsets := [] }).follower.mode = false := hmer
          rw [hmer]; nofun)
      exact ⟨fun d hd => moves.relay.mem _ (marks.1 d hd), fun hs => moves.relay.mem _ (marks.2 hs)⟩
    · rw [waits hp]
      have hroom' : (steadied (withoutHead s)).handler.alerts.length < 16 := by
        have : (steadied (withoutHead s)).handler = (withoutHead s).handler := by simp [steadied]
        rw [this]; exact hroom
      have hm := phrase_mem_endWait (s := steadied (withoutHead s)) ((at_ Follower.current).trans hc) .released hroom'
      have hplan : planEntry (steadied (withoutHead s)) i = planEntry s i := by simp [steadied, planEntry]
      have htime : (steadied (withoutHead s)).partTime = s.partTime := by simp [steadied]
      rwa [hplan, htime] at hm
    · rw [waits hp]
      have hclock : (steadied (withoutHead s)).clock = s.clock := by simp [steadied]
      have hplan : planEntry (steadied (withoutHead s)) i = planEntry s i := by simp [steadied, planEntry]
      have hstore : (steadied (withoutHead s)).store = s.store := by simp [steadied]
      have htime : (steadied (withoutHead s)).partTime = s.partTime := by simp [steadied]
      have runs := endWait_runs (s := steadied (withoutHead s)) .released ((at_ Follower.current).trans hc)
        ((at_ Follower.next).trans hn) (by rw [hclock]; exact hh) (by rw [hclock]; exact hle)
        (by rw [hplan, phraseLength, hstore]; exact hlen) fun n => by rw [stepRec, hstore]; exact hdur n
      rwa [hclock, htime] at runs

/-! ### START (R100, R67) -/

/-- The clock at a START. -/
def startClock (s : State) (request : Option Nat) : Clock := { s.clock with
  state := .held, t0 := s.partTime, x0 := 0, period := startPeriod s request, pendingTempo := none, highest := 0, beats := 0 }

/-- START taken, before entry 0 is begun. -/
def starting (s : State) (request : Option Nat) : State :=
  let s1 := (s.withClock (startClock s request)).withFollower (startFollower s)
  makeSwitch (s1.withSched { s1.sched with walkCurrent := none, walkNext := none, stalled := none }) 0

theorem startPlay_eq (s : State) (request : Option Nat) : startPlay s request =
    match originFor (starting s request) 0 none 0 with
    | some o => settle (beginOrgan (starting s request) 0 o 0 .organ)
    | none => enterWaiting (starting s request) 0 0 := rfl

theorem starting_follower (s : State) (request : Option Nat) : (starting s request).follower = startFollower s := by simp [starting]

theorem starting_clock (s : State) (request : Option Nat) : (starting s request).clock = startClock s request := by simp [starting]

theorem starting_keeps (s : State) (request : Option Nat) : (starting s request).partTime = s.partTime ∧
    (starting s request).store = s.store ∧ (starting s request).tables = s.tables ∧ (starting s request).handler = s.handler := by
  simp [starting]

theorem planEntry_starting (s : State) (request : Option Nat) (i : EntryNo) : planEntry (starting s request) i = planEntry s i := by
  simp [starting, planEntry]

/-- Entry 0's registration switch is made at a START. -/
theorem starting_registration (s : State) (request : Option Nat) :
    (∀ k, (planEntry s 0).registration = some k → (starting s request).sched.active = some k ∧
      (starting s request).sched.switched = some 0 ∧
      (starting s request).sched.stopImage = lessWithdrawn s (vget s.tables.sets k)) ∧
    ((planEntry s 0).registration = none → (starting s request).sched.active = s.sched.active ∧
      (starting s request).sched.stopImage = s.sched.stopImage) := by
  have switch : starting s request = match (planEntry s 0).registration with
      | some k => setActive ((((s.withClock (startClock s request)).withFollower (startFollower s)).withSched { s.sched with
          walkCurrent := none, walkNext := none, stalled := none }).withSched { s.sched with
            walkCurrent := none, walkNext := none, stalled := none, switched := some 0 }) (some k)
      | none => ((s.withClock (startClock s request)).withFollower (startFollower s)).withSched { s.sched with
          walkCurrent := none, walkNext := none, stalled := none } := rfl
  refine ⟨fun k hk => ?_, fun hk => ?_⟩ <;> rw [switch, hk]
  · dsimp only
    rw [setActive_sched]
    exact ⟨rfl, rfl, rfl⟩
  · exact ⟨rfl, rfl⟩

/-- Entry 0 has none before it, so no switch waits on one. -/
theorem waitingSwitches_of_first {s : State} (hc : s.follower.current = some 0) (hn : s.follower.next = none) : waitingSwitches s = s := by
  have first : switchIfFinished s 0 = s := rfl
  have hengaged : engagedIndex s = none := by rw [engagedIndex, hc, hn]
  unfold waitingSwitches
  rw [hc]
  cases cancelled s
  · simp only [first, hengaged]
  · simp only [hengaged]

theorem start_readable (s : State) (request : Option Nat) : readable (starting s request) 0 = true := by
  rw [readable, listLocked, starting_follower, planEntry_starting]
  simp [startFollower]

/-- The origin of entry 0: none when the choir starts it. -/
theorem originFor_start (s : State) (request : Option Nat) : originFor (starting s request) 0 none 0 =
    if (planEntry s 0).start = .choirLed ∧ s.follower.mode ≠ .steady ∧ hasPoints s 0 = true then none
    else some (gapOf (planEntry s 0)) := by
  obtain ⟨-, hstore, htables, -⟩ := starting_keeps s request
  have hmode : (starting s request).follower.mode = s.follower.mode := by rw [starting_follower]; rfl
  have hpts : hasPoints (starting s request) 0 = hasPoints s 0 := hasPoints_congr hstore htables 0
  rw [originFor, planEntry_starting, start_readable, hpts, startKind_congr hmode, zero_add]
  refine if_congr ?_ rfl rfl
  rw [startKind_choirLed, Bool.not_true, Bool.false_or, and_assoc]

theorem requestPeriod_eq (s : State) (request : Option Nat) :
    startPeriod s request = clampPeriod s (request.getD ((planEntry s 0).tempo.getD s.clock.period)) := by
  unfold startPeriod
  cases request <;> cases (planEntry s 0).tempo <;> rfl

theorem gapOf_nonneg (e : PlanEntry) : 0 ≤ gapOf e := by
  unfold gapOf
  split
  · exact le_rfl
  · exact Int.mul_nonneg (by omega) (by decide)

/-- START of an entry that does not wait: it runs from position 0. -/
theorem startPlay_runs {s : State} {request : Option Nat}
    (h : ¬((planEntry s 0).start = .choirLed ∧ s.follower.mode ≠ .steady ∧ hasPoints s 0 = true))
    (hlen : phraseLength s (planEntry s 0).list ≠ 0) (hdur : ∀ n, 0 < (stepRec s n).music.duration) :
    startPlay s request = (postPhrase (beginAt (starting s request) (gapOf (planEntry s 0)) 0) 0 .organ).withClock
      { startClock s request with state := .moving } := by
  obtain ⟨htime, hstore, htables, -⟩ := starting_keeps s request
  have hclock := starting_clock s request
  have hx : (starting s request).clock.x0 = 0 := by rw [hclock]; rfl
  have runs := beginOrgan_runs 65 (s := starting s request) (i := 0) (o := gapOf (planEntry s 0)) .organ
    (by rw [starting_follower]; rfl) (by rw [starting_follower]; rfl) (by rw [hclock]; rfl)
    (by rw [hclock]; exact le_rfl) (by rw [hx]; exact gapOf_nonneg _)
    (by rw [planEntry_starting, phraseLength, hstore]; exact hlen) fun n => by rw [stepRec, hstore]; exact hdur n
  rw [hx, hclock, htime] at runs
  rw [startPlay_eq, originFor_start, if_neg h]
  refine runs.trans (waitingSwitches_of_first ?_ ?_)
  · have hfol : ((postPhrase (beginAt (starting s request) (gapOf (planEntry s 0)) 0) 0 .organ).withClock
        { startClock s request with state := .moving, t0 := s.partTime }).follower =
        (beginAt (starting s request) (gapOf (planEntry s 0)) 0).follower := by simp
    rw [hfol, beginAt_follower, starting_follower]
    rfl
  · have hfol : ((postPhrase (beginAt (starting s request) (gapOf (planEntry s 0)) 0) 0 .organ).withClock
        { startClock s request with state := .moving, t0 := s.partTime }).follower =
        (beginAt (starting s request) (gapOf (planEntry s 0)) 0).follower := by simp
    rw [hfol, beginAt_follower, starting_follower]
    rfl

theorem startPlay_waits {s : State} {request : Option Nat}
    (h : (planEntry s 0).start = .choirLed ∧ s.follower.mode ≠ .steady ∧ hasPoints s 0 = true) :
    startPlay s request = enterWaiting (starting s request) 0 0 := by
  rw [startPlay_eq, originFor_start, if_pos h]

theorem postPhrase_alerts (s : State) (i : EntryNo) (m : Manner) : (postPhrase s i m).handler.alerts =
    if s.handler.alerts.length < 16 then s.handler.alerts ++ [.phrase i (planEntry s i).start m s.partTime] else s.handler.alerts := by
  unfold postPhrase postAlert
  split
  · rename_i h; exact (if_pos h).symm
  · rename_i h; exact (if_neg h).symm

theorem startArg_eq {args : List Byte} {request : Option Nat}
    (h : (args = [] ∧ request = none) ∨ ∃ b0 b1 b2 b3, args = [b0, b1, b2, b3] ∧
      request = if long b0 b1 b2 b3 = 0 then none else some (long b0 b1 b2 b3)) :
    startArg args = request ∧ (args.length = 0 ∨ args.length = 4) := by
  rcases h with ⟨rfl, rfl⟩ | ⟨b0, b1, b2, b3, rfl, rfl⟩
  · exact ⟨rfl, .inl rfl⟩
  · exact ⟨rfl, .inr rfl⟩

theorem startRequest_passed {s : State} (tag : Byte) {args : List Byte} (hm : s.follower.mode ≠ .off) (he : s.prot.escalated = false)
    (hp : s.follower.play = .idle) (hz : s.tables.planSize ≠ 0) (hi : involved s (planEntry s 0).list = false) :
    startRequest s tag args = done (startPlay s (startArg args)) (out32 (startPeriod s (startArg args))) :=
  (if_neg hm).trans ((if_neg (Bool.eq_false_iff.mp he)).trans ((if_neg (not_not.mpr hp)).trans
    ((if_neg hz).trans (if_neg (Bool.eq_false_iff.mp hi)))))

/-- Settles O23: entry 0 waits for the choir, or runs from position 0. -/
theorem startBeginsEntryZero : Obligations.StartBeginsEntryZero := by
  unfold Obligations.StartBeginsEntryZero
  intro s tag args request h hargs hm he hp hz hi
  obtain ⟨hreq, hlen⟩ := startArg_eq hargs
  let u := withoutHead s
  have hclock := starting_clock u request
  have hfol := starting_follower u request
  obtain ⟨htime, -, -, hhandler⟩ := starting_keeps u request
  have hplan : planEntry (starting u request) 0 = planEntry s 0 := planEntry_starting u request 0
  obtain ⟨hreg, hkeep⟩ := starting_registration u request
  have hperiod : startPeriod u request = clampPeriod s (request.getD ((planEntry s 0).tempo.getD s.clock.period)) := requestPeriod_eq u request
  refine ⟨startPlay u request, ?_, (evolves_startPlay (s := u) request hi).sameScoreAndTables (by simp), by simp [u], by simp [u],
    fun hcase => ?both, fun hw => ?waiting, fun hw hlen hdur => ?runs⟩
  · refine exec_done h (act := startRequest) rfl (requestRow_start hlen tag) ?_
    rw [startRequest_passed (s := u) tag hm he hp hz hi, hreq, hperiod]
  case both =>
    by_cases hw : (planEntry s 0).start = .choirLed ∧ s.follower.mode ≠ .steady ∧ hasPoints s 0 = true
    · rw [startPlay_waits (s := u) hw, if_pos hw]
      have hf : (enterWaiting (starting u request) 0 0).follower.current = some 0 ∧
          (enterWaiting (starting u request) 0 0).follower.next = none ∧ (enterWaiting (starting u request) 0 0).follower.finish = .none ∧
          (enterWaiting (starting u request) 0 0).follower.window = [] ∧
          (enterWaiting (starting u request) 0 0).follower.lockSet = [(planEntry s 0).list] ∧
          (enterWaiting (starting u request) 0 0).follower.counter = s.follower.counter ∧
          (enterWaiting (starting u request) 0 0).follower.conf = s.follower.conf ∧
          (enterWaiting (starting u request) 0 0).follower.run = 0 := by
        simp only [enterWaiting, State.withFollower_follower, hfol]
        exact ⟨rfl, rfl, rfl, rfl, rfl, rfl, rfl, rfl⟩
      obtain ⟨f1, f2, f3, f4, f5, f6, f7, f8⟩ := hf
      refine ⟨?_, f1, f2, f3, f4, f5, f6, f7, f8, hreg, hkeep⟩
      change Clock.mk .held (starting u request).partTime 0 (starting u request).clock.period (starting u request).clock.pendingTempo
        (starting u request).clock.highest (starting u request).clock.beats (starting u request).clock.rate = _
      rw [htime, hclock, ← hperiod]
      rfl
    · obtain ⟨hlen, hdur⟩ := hcase.resolve_left hw
      rw [startPlay_runs (s := u) hw hlen hdur, if_neg hw]
      have hf : ((postPhrase (beginAt (starting u request) (gapOf (planEntry s 0)) 0) 0 .organ).withClock
          { startClock u request with state := .moving }).follower =
          (beginAt (starting u request) (gapOf (planEntry s 0)) 0).follower := by simp
      have hs : ((postPhrase (beginAt (starting u request) (gapOf (planEntry s 0)) 0) 0 .organ).withClock
          { startClock u request with state := .moving }).sched = { (starting u request).sched with
            walkCurrent := some ((starting u request).sched.walkCurrent.getD 0) } := by
        rw [← beginAt_sched (starting u request) (gapOf (planEntry s 0)) 0]; simp
      have hc : ((postPhrase (beginAt (starting u request) (gapOf (planEntry s 0)) 0) 0 .organ).withClock
          { startClock u request with state := .moving }).clock = { startClock u request with state := .moving } := rfl
      have hplanU : planEntry u 0 = planEntry s 0 := rfl
      rw [hplanU, hf, hs, hc, beginAt_follower, hfol]
      refine ⟨?_, rfl, rfl, rfl, rfl, rfl, rfl, rfl, rfl, hreg, hkeep⟩
      rw [← hperiod]
      rfl
  case waiting =>
    rw [startPlay_waits (s := u) hw]
    have horigin : (enterWaiting (starting u request) 0 0).follower.origin = 0 := by
      simp only [enterWaiting, State.withFollower_follower, hfol]
      rfl
    refine ⟨rfl, horigin, ?_, ?_, ?_⟩
    · rw [← hhandler]; simp
    · change some (StopPoint.mk 0 .wait (some (starting u request).partTime)) = _
      rw [htime]
      rfl
    · change some (after (starting u request).partTime (((planEntry (starting u request) 0).leadIn * (starting u request).clock.period : Nat) : Int)) = _
      rw [htime, hplan, hclock, ← hperiod]
      rfl
  case runs =>
    rw [startPlay_runs (s := u) hw hlen hdur]
    have hf : ((postPhrase (beginAt (starting u request) (gapOf (planEntry s 0)) 0) 0 .organ).withClock
        { startClock u request with state := .moving }).follower =
        (beginAt (starting u request) (gapOf (planEntry s 0)) 0).follower := by simp
    have ha : ((postPhrase (beginAt (starting u request) (gapOf (planEntry s 0)) 0) 0 .organ).withClock
        { startClock u request with state := .moving }).handler.alerts =
        (postPhrase (beginAt (starting u request) (gapOf (planEntry s 0)) 0) 0 .organ).handler.alerts := rfl
    have hb : (beginAt (starting u request) (gapOf (planEntry s 0)) 0).handler.alerts = s.handler.alerts := by
      have : (beginAt (starting u request) (gapOf (planEntry s 0)) 0).handler = u.handler := by simp [hhandler]
      rw [this]
      rfl
    have hbplan : planEntry (beginAt (starting u request) (gapOf (planEntry s 0)) 0) 0 = planEntry s 0 := by
      rw [← hplan]; simp [planEntry]
    have hbtime : (beginAt (starting u request) (gapOf (planEntry s 0)) 0).partTime = s.partTime := by
      have : (beginAt (starting u request) (gapOf (planEntry s 0)) 0).partTime = u.partTime := by simp [htime]
      exact this
    have hplanU : planEntry u 0 = planEntry s 0 := rfl
    rw [hplanU, hf, ha, postPhrase_alerts, hb, hbplan, hbtime, beginAt_follower]
    refine ⟨?_, rfl, rfl⟩
    have hg := gapOf_nonneg (planEntry s 0)
    by_cases h0 : gapOf (planEntry s 0) = 0
    · rw [if_pos h0, if_neg (by rw [h0]; exact lt_irrefl _)]
    · rw [if_neg h0, if_pos (lt_of_le_of_ne hg (Ne.symm h0))]

end Machine

end Sys2Proof
end

section
/-! PROOF. Requests on faults, STATUS, RESTART, RESET and unreadable requests (O30 to O33). -/

namespace Sys2Proof

namespace Machine

set_option Elab.async false

/-! ### FAULT-CLEAR -/

/-- Records are cleared one by one, and nothing else of the state changes. -/
theorem faults_cleared (ds : List Division) (s : State) : ∃ f : PerDiv (Option FaultRec),
    ds.foldl (fun a d => withFault a d none) s = s.withProt { s.prot with faults := f } ∧
      ∀ d, f.get d = if d ∈ ds then none else s.prot.faults.get d := by
  induction ds generalizing s with
  | nil => exact ⟨s.prot.faults, rfl, fun d => (if_neg (by simp)).symm⟩
  | cons e ds ih =>
    obtain ⟨f, hf, hget⟩ := ih (withFault s e none)
    refine ⟨f, hf, fun d => ?_⟩
    rw [hget d, withFault, State.withProt_prot, PerDiv.get_set]
    by_cases hd : d ∈ ds <;> by_cases he : d = e <;> simp [hd, he]

/-- The catch-up walk a lift begins. -/
def liftWalk (s : State) : CatchUp := { liftPos := position s, parts := catchParts s }

theorem resumeDivision_eq (s : State) (d : Division) : resumeDivision s d = s.withSched { s.sched with
    catchUp := if (catchParts s).isEmpty then s.sched.catchUp else s.sched.catchUp.set d (some (liftWalk s)) } := by
  unfold resumeDivision liftWalk
  split
  · rename_i h
    rw [h]
    rfl
  · rename_i h
    rw [if_neg (by simpa using h)]

/-- What a resumption of divisions leaves of their catch-up walks; it changes nothing else. -/
theorem resumeFreed_eq (ds : List Division) (b s : State) : ∃ c : PerDiv (Option CatchUp),
    resumeFreed ds b s = s.withSched { s.sched with catchUp := c } ∧
      ∀ d, c.get d = if d ∈ ds ∧ (overridden b d && !overridden s d && !(catchParts s).isEmpty) = true
        then some (liftWalk s) else s.sched.catchUp.get d := by
  induction ds generalizing s with
  | nil => exact ⟨s.sched.catchUp, rfl, fun d => (if_neg (by simp)).symm⟩
  | cons e ds ih =>
    have step : ∃ c : PerDiv (Option CatchUp),
        (if overridden b e && !overridden s e then resumeDivision s e else s) = s.withSched { s.sched with catchUp := c } ∧
          ∀ d, c.get d = if d = e ∧ (overridden b d && !overridden s d && !(catchParts s).isEmpty) = true
            then some (liftWalk s) else s.sched.catchUp.get d := by
      by_cases ho : (overridden b e && !overridden s e) = true
      · rw [if_pos ho, resumeDivision_eq]
        refine ⟨_, rfl, fun d => ?_⟩
        by_cases hp : (catchParts s).isEmpty = true
        · simp [hp]
        · by_cases hd : d = e
          · subst hd; simp [hp, ho]
          · simp [hp, hd, PerDiv.get_set]
      · rw [if_neg ho]
        refine ⟨s.sched.catchUp, rfl, fun d => (if_neg fun h => ?_).symm⟩
        obtain ⟨rfl, h⟩ := h
        rw [Bool.and_eq_true] at h
        exact ho h.1
    obtain ⟨c, hc, hcget⟩ := step
    obtain ⟨f, hf, hfget⟩ := ih (s.withSched { s.sched with catchUp := c })
    refine ⟨f, ?_, fun d => ?_⟩
    · rw [resumeFreed, List.foldl_cons, hc]
      exact hf
    · have same : (d ∈ ds ∧ (overridden b d && !overridden (s.withSched { s.sched with catchUp := c }) d &&
          !(catchParts (s.withSched { s.sched with catchUp := c })).isEmpty) = true) ↔
          (d ∈ ds ∧ (overridden b d && !overridden s d && !(catchParts s).isEmpty) = true) := Iff.rfl
      rw [hfget d]
      simp only [same, State.withSched_sched]
      rw [hcget d, show liftWalk (s.withSched { s.sched with catchUp := c }) = liftWalk s from rfl]
      generalize (overridden b d && !overridden s d && !(catchParts s).isEmpty) = p
      by_cases hm : d ∈ ds <;> by_cases he : d = e <;> cases p <;> simp [hm, he]

/-- Records cleared and the escalation lifted: the stop image formed afresh, the divisions freed resumed, an alert posted. -/
theorem clearFaults_eq {s : State} {ds : List Division} (hany : ds.any (latched s) = true) (named : Option Division) :
    ∃ p : Protection, (∀ d, p.faults.get d = if d ∈ ds then none else s.prot.faults.get d) ∧
      p.windLow = s.prot.windLow ∧ p.escalated = (s.prot.escalated && Division.all.any fun d => (p.faults.get d).isSome) ∧
      clearFaults s ds named =
        postFault (resumeFreed ds s (reformStops (s.withProt p))) .clear named none := by
  obtain ⟨f, hf, hget⟩ := faults_cleared ds s
  rw [clearFaults, if_pos hany]
  simp only [hf]
  by_cases hl : anyLatched (s.withProt { s.prot with faults := f }) = true
  · refine ⟨{ s.prot with faults := f }, hget, rfl, ?_, ?_⟩
    · have : (Division.all.any fun d => (f.get d).isSome) = true := hl
      simp only [this, Bool.and_true]
    · rw [if_pos hl]
  · refine ⟨{ s.prot with faults := f, escalated := false }, hget, rfl, ?_, ?_⟩
    · have : (Division.all.any fun d => (f.get d).isSome) = false := Bool.eq_false_iff.mpr hl
      simp only [this, Bool.and_false]
    · rw [if_neg hl]
      rfl

theorem catchParts_reformStops (s : State) : catchParts (reformStops s) = catchParts s := by
  have walks : walkAt (reformStops s) = walkAt s := by
    funext w
    cases w <;> simp [walkAt, engagedIndex]
  rw [catchParts, catchParts, walks]

theorem position_reformStops (s : State) : position (reformStops s) = position s := by
  simp [position]

theorem formedImage_of_blocks {s t : State} (hp : t.prot = s.prot) (ht : t.tables = s.tables)
    (ha : t.sched.active = s.sched.active) : formedImage t = formedImage s :=
  formedImage_of_same (by rw [hp]) (fun d => by simp [latched, hp]) (by rw [ht]) (by simp [activeSet, ha, ht])

theorem latched_of_prot {s t : State} (h : t.prot = s.prot) : latched t = latched s := by
  funext d
  simp [latched, h]

theorem overridden_of_prot {s t : State} (h : t.prot = s.prot) : overridden t = overridden s := by
  funext d
  simp [overridden, latched_of_prot h, h]

theorem anyLatched_of_prot {s t : State} (h : t.prot = s.prot) : anyLatched t = anyLatched s := by
  rw [anyLatched, latched_of_prot h, anyLatched]

theorem latchedSet_of_prot {s t : State} (h : t.prot = s.prot) : latchedSet t = latchedSet s := by
  rw [latchedSet, latched_of_prot h, latchedSet]

theorem protectionByte_of_prot {s t : State} (h : t.prot = s.prot) : protectionByte t = protectionByte s := by
  rw [protectionByte, overrideSet, overridden_of_prot h, h, protectionByte, overrideSet]

/-- A FAULT alert reports the protection state it finds. -/
theorem postFault_alerts {s : State} (hroom : s.handler.alerts.length < 16) (c : FaultCause) (d : Option Division) (k : Option Key) :
    (postFault s c d k).handler.alerts = s.handler.alerts ++ [.fault c d k (latchedSet s) (protectionByte s) s.partTime] := by
  rw [postFault, postAlert_of_room hroom]
  rfl

/-- Settles O30: the records are cleared, the stop image is formed of what is left, and each division freed is resumed with the parts
the walks have passed. -/
theorem faultClearLiftsLatchedFaults : Obligations.FaultClearLiftsLatchedFaults := by
  unfold Obligations.FaultClearLiftsLatchedFaults
  intro s tag b h
  have arg : byteAt [b] 0 = b.toNat := byteAt_cons_zero b []
  refine ⟨fun h4 h255 => exec_refused h (act := faultClearRequest) rfl rfl ?_, fun named hnamed => ?_⟩
  · rw [faultClearRequest, arg, faultDivisions?, if_neg h255, Division.ofNum?_none h4]
    rfl
  · intro hit
    obtain ⟨ds, hds, hofNum, hmem⟩ : ∃ ds, faultDivisions? b.toNat = some ds ∧ Division.ofNum? b.toNat = named ∧
        ∀ d, d ∈ ds ↔ hit d = true := by
      rw [← hnamed]
      cases named with
      | none => exact ⟨Division.all, rfl, rfl, fun d => by simp [hit, mem_divisionAll]⟩
      | some e => exact ⟨[e], by cases e <;> rfl, by cases e <;> rfl, fun d => by simp [hit, eq_comm]⟩
    have named_ : faultClearRequest (withoutHead s) tag [b] =
        done (clearFaults (withoutHead s) ds named) (outFaults (clearFaults (withoutHead s) ds named) ++
          [protectionByte (clearFaults (withoutHead s) ds named)]) := by
      rw [faultClearRequest, arg, hds, hofNum]
    refine ⟨fun hclear => exec_done h (act := faultClearRequest) rfl rfl (named_.trans ?_), fun ⟨e, he, hle⟩ => ?_⟩
    · have : clearFaults (withoutHead s) ds named = withoutHead s := if_neg (by
        simp only [List.any_eq_true, not_exists, not_and, Bool.not_eq_true]
        exact fun d hd => hclear d ((hmem d).mp hd))
      rw [this]
      rfl
    · have hany : ds.any (latched (withoutHead s)) = true := List.any_eq_true.mpr ⟨e, (hmem e).mpr he, hle⟩
      obtain ⟨p, hfaults, hwind, hesc, hclear⟩ := clearFaults_eq hany named
      obtain ⟨c, hc, hcget⟩ := resumeFreed_eq ds (withoutHead s) (reformStops ((withoutHead s).withProt p))
      have evolves : Evolves ((withoutHead s).withProt p) (clearFaults (withoutHead s) ds named) := by
        rw [hclear]
        exact (evolves_reformStops _).trans ((evolves_resumeFreed _ _ _).trans (evolves_postFault _ _ _ _))
      have store : (clearFaults (withoutHead s) ds named).store = s.store := by simp
      have hprot : (clearFaults (withoutHead s) ds named).prot = p := evolves.prot
      have sched : (clearFaults (withoutHead s) ds named).sched =
          { s.sched with stopImage := formedImage ((withoutHead s).withProt p), catchUp := c } := by
        rw [hclear, hc]
        simp [postFault]
      refine ⟨clearFaults (withoutHead s) ds named, exec_done h (act := faultClearRequest) rfl rfl named_,
        evolves.sameScoreAndTables store, by simp, by simp, by simp, fun d => ?_, by rw [hprot, hwind]; rfl, ?_, ?_, by rw [sched],
        by rw [sched], by rw [sched], fun hroom => ?_, fun hi => ?_, fun d => ?_⟩
      · rw [hprot, hfaults d]
        exact if_congr (hmem d) rfl rfl
      · rw [anyLatched_of_prot (s := (withoutHead s).withProt p) hprot, hprot, hesc]
        rfl
      · rw [sched]
        exact (formedImage_of_blocks (by rw [hprot]; rfl) evolves.tables (by rw [sched]; rfl)).symm
      · have hp : (clearFaults (withoutHead s) ds named).prot =
            (resumeFreed ds (withoutHead s) (reformStops ((withoutHead s).withProt p))).prot := by rw [hprot]; simp
        rw [latchedSet_of_prot hp, protectionByte_of_prot hp, hclear, postFault_alerts]
        · simp
          rfl
        · simpa using (show (withoutHead s).handler.alerts.length < 16 from hroom)
      · rw [hclear]
        refine ((evolves_resumeFreed _ _ _).trans (evolves_postFault _ _ _ _)).relay.mem _ (reformStops_marks fun hsame => hi ?_)
        rw [sched]
        exact hsame
      · rw [sched]
        have freed : overridden (clearFaults (withoutHead s) ds named) d = overridden (reformStops ((withoutHead s).withProt p)) d := by
          simp [overridden, latched, hprot]
        have parts : catchParts (reformStops ((withoutHead s).withProt p)) = catchParts s := catchParts_reformStops _
        rw [hcget d, freed, parts, show liftWalk (reformStops ((withoutHead s).withProt p)) =
          { liftPos := position s, parts := catchParts s } by rw [liftWalk, parts, position_reformStops]; rfl]
        by_cases hm : d ∈ ds
        · simp only [hm, true_and]
          rw [reformStops_sched]
          rfl
        · have still : overridden (reformStops ((withoutHead s).withProt p)) d = overridden s d := by
            simp [overridden, latched, hfaults d, hm, hwind]
          rw [if_neg (fun hc => hm hc.1), still, Bool.and_not_self, Bool.false_and, if_neg (by simp), reformStops_sched]
          rfl

end Machine

end Sys2Proof
end

section
/-! PROOF. The answers to STATUS, RESTART, RESET and unreadable requests (O31 to O33). -/

namespace Sys2Proof

namespace Machine

set_option Elab.async false

/-! ### STATUS -/

theorem outFaultRec_eq (r : Option FaultRec) : outFaultRec r = match r with
    | some f => [byte f.kind.code, byte ((f.key.map Fin.val).getD 255)]
    | none => [0, 255] := by
  cases r <;> rfl

theorem outFaultRec_length (r : Option FaultRec) : (outFaultRec r).length = 2 := by
  rw [outFaultRec_eq]
  split <;> rfl

theorem outFaults_eq (s : State) : outFaults s = outFaultRec (s.prot.faults.get .pedal) ++
    outFaultRec (s.prot.faults.get .great) ++ outFaultRec (s.prot.faults.get .swell) ++
    outFaultRec (s.prot.faults.get .positive) := by
  simp [outFaults, Division.all]

theorem out16_length (n : Nat) : (out16 n).length = 2 := rfl

theorem out32_length (n : Nat) : (out32 n).length = 4 := rfl

theorem outLastOnset_length (r : Option LastOnset) : (outLastOnset r).length = 10 := by
  cases r <;> rfl

theorem outStatus_length (s : State) (x : Int) : (outStatus s x).length = 55 := by
  simp [outStatus, outStatusBlocks, outFaults_eq, outFaultRec_length, outLastOnset_length, outOpt8, outStep, outInt32, outTime,
    out16_length, out32_length]

/-- Settles O31: the status record, block by block; the mark of the reply is the alerts-lost flag. -/
theorem statusReportsEveryBlock : Obligations.StatusReportsEveryBlock := by
  unfold Obligations.StatusReportsEveryBlock
  intro s tag h fault last data
  have hfault : ∀ d, fault d = outFaultRec (s.prot.faults.get d) := fun d => (outFaultRec_eq _).symm
  have hlast : last = outLastOnset s.detector.lastOnset := by
    simp only [last]
    cases s.detector.lastOnset <;> rfl
  have record : data = outStatus (withoutHead s) (phraseTick (withoutHead s)) := by
    simp only [data, hfault, hlast, outStatus, outStatusBlocks, outFaults_eq, outOpt8, outStep, outInt32, outTime, out8_eq,
      List.append_assoc, List.cons_append, List.nil_append]
    rfl
  refine ⟨by rw [record, outStatus_length], ?_⟩
  have taken : exec .status s = .next (take s .status statusRequest fun x => x.handler.alertsLost) := rfl
  rw [taken, take_of_taking h .status statusRequest (fun x => x.handler.alertsLost) rfl, record]
  rfl

/-! ### RESTART -/

theorem vget_foldl_vset {α : Type} {n : Nat} (cs : List (Fin n)) (hn : cs.Nodup) (f : Fin n → α → α) (v : Vector α n) (c : Fin n) :
    vget (cs.foldl (fun v c => vset v c (f c (vget v c))) v) c = if c ∈ cs then f c (vget v c) else vget v c := by
  induction cs generalizing v with
  | nil => rfl
  | cons a cs ih =>
    obtain ⟨ha, hn⟩ := List.nodup_cons.mp hn
    rw [List.foldl_cons, ih hn, vget_vset]
    by_cases hc : c = a
    · subst hc; simp [ha]
    · simp [hc]

theorem mem_availableChannels (s : State) (c : Fin 4) : c ∈ availableChannels s ↔ (available s).getLsbD c.val = true := by
  simp [availableChannels]

/-- Every available channel is rewritten, and no other. -/
theorem channel_mapChannels (s : State) (f : Fin 4 → Channel → Channel) (c : Fin 4) :
    vget (mapChannels s f).detector.channels c =
      if (available s).getLsbD c.val = true then f c (vget s.detector.channels c) else vget s.detector.channels c := by
  have nodup : (availableChannels s).Nodup := (List.nodup_finRange 4).filter _
  rw [mapChannels, State.withDetector_detector]
  simp only [vget_foldl_vset _ nodup, mem_availableChannels]

/-- The detector at rest keeps its histories, its last onset and its freshness; every available channel is ARMED. -/
theorem restDetector_detector (s : State) : (restDetector s).detector.gather = none ∧ (restDetector s).detector.cutoff = .quiet ∧
    (restDetector s).detector.lastOnset = s.detector.lastOnset ∧ (restDetector s).detector.fresh = s.detector.fresh ∧
    ∀ c : Fin 4, (vget (restDetector s).detector.channels c).history = (vget s.detector.channels c).history ∧
      ((available s).getLsbD c.val = true → (vget (restDetector s).detector.channels c).state = .armed) := by
  refine ⟨rfl, rfl, rfl, rfl, fun c => ?_⟩
  have same : vget (restDetector s).detector.channels c =
      vget (mapChannels s fun _ ch => { ch with state := .armed }).detector.channels c := rfl
  rw [same, channel_mapChannels]
  split
  · exact ⟨rfl, fun _ => rfl⟩
  · exact ⟨rfl, fun h => absurd h ‹_›⟩

theorem restDetector_congr {s t : State} (h : t.detector = s.detector) : (restDetector t).detector = (restDetector s).detector := by
  simp [restDetector, mapChannels, availableChannels, available, h]

/-- A posting looks at the handler alone for what it leaves there. -/
theorem postAlert_handler_congr {s t : State} (h : s.handler = t.handler) (a : Alert) :
    (postAlert s a).handler = (postAlert t a).handler := by
  by_cases hroom : t.handler.alerts.length < Config.alertMax <;> simp [postAlert, loseAlert, h, hroom]

theorem foldl_postAlert_handler_congr {s t : State} (h : s.handler = t.handler) (as : List Alert) :
    (as.foldl postAlert s).handler = (as.foldl postAlert t).handler := by
  induction as generalizing s t with
  | nil => exact h
  | cons a as ih => exact ih (postAlert_handler_congr h a)

theorem position_congr {s t : State} (hc : t.clock = s.clock) (hf : t.follower.stop = s.follower.stop)
    (ht : t.partTime = s.partTime) : position t = position s := by
  simp only [position, hc, hf, ht]

theorem beatIndex_congr {s t : State} (hf : t.follower.origin = s.follower.origin) (x : Pos) : beatIndex t x = beatIndex s x := by
  rw [beatIndex, hf, beatIndex]

theorem crossings_congr {s t : State} (hc : t.clock.highest = s.clock.highest) (hf : t.follower.origin = s.follower.origin) (x : Pos) :
    crossings t x = crossings s x := by
  unfold crossings
  rw [hc, beatIndex_congr hf, beatIndex_congr hf]

theorem stopCrossings_congr {s t : State} (hc : t.clock = s.clock) (hf : t.follower = s.follower) (ht : t.partTime = s.partTime) :
    stopCrossings t = stopCrossings s := by
  unfold stopCrossings
  rw [crossings_congr (s := s) (by rw [hc]) (by rw [hf]), position_congr hc (by rw [hf]) ht, hc]

theorem beatReported_congr {s t : State} (hc : t.clock = s.clock) (n : Nat) : beatReported t n = beatReported s n := by
  unfold beatReported
  rw [hc]

theorem stopAlerts_congr {s t : State} (hc : t.clock = s.clock) (hf : t.follower = s.follower) (ht : t.partTime = s.partTime) :
    stopAlerts t = stopAlerts s := by
  unfold stopAlerts
  rw [stopCrossings_congr hc hf ht, beatReported_congr hc, beatIndex_congr (s := s) (by rw [hf]), position_congr hc (by rw [hf]) ht, hc, hf, ht]

/-- Stopping a stopped clock again at the same time changes nothing. -/
theorem stoppedClock_again {s t : State} (hc : t.clock = stoppedClock s) (ht : t.partTime = s.partTime) :
    stoppedClock t = stoppedClock s ∧ stopAlerts t = [] := by
  have stopped : t.clock.state = .stopped := by rw [hc]; rfl
  have hx : position t = position s := by
    rw [position_of_not_moving (by rw [stopped]; decide), hc]
    rfl
  refine ⟨?_, ?_⟩
  · rw [stoppedClock, if_pos stopped, hx, ht, hc]
    rfl
  · rw [stopAlerts, stopCrossings, if_pos stopped, beatReported_zero]
    rfl

/-- Play stopped if there is any, the registration dropped, and the clock stopped: the clock, the alerts and the follower. -/
theorem restart_stop (s : State) :
    (stopClock (clearRegistration (stopIfPlaying s)) true).clock = stoppedClock s ∧
      (stopClock (clearRegistration (stopIfPlaying s)) true).handler = ((stopAlerts s).foldl postAlert s).handler ∧
      (stopClock (clearRegistration (stopIfPlaying s)) true).follower =
        (if s.follower.play = .idle then s.follower else resting s.follower) := by
  by_cases hp : s.follower.play = .idle
  · rw [stopIfPlaying, if_pos hp, if_pos hp]
    obtain ⟨hclock, hhandler⟩ := stopClock_spec (clearRegistration s) true
    refine ⟨?_, ?_, by simp⟩
    · rw [hclock]
      simp [stoppedClock, position]
    · rw [hhandler, foldl_postAlert_handler_congr (t := s) (by simp), stopAlerts_congr (s := s) (by simp) (by simp) (by simp)]
  · rw [stopIfPlaying, if_neg hp, if_neg hp]
    obtain ⟨sclock, shandler, sfollower⟩ := stopPlay_spec s
    obtain ⟨hclock, hhandler⟩ := stopClock_spec (clearRegistration (stopPlay s)) true
    obtain ⟨hagain, hnone⟩ := stoppedClock_again (s := s) (t := clearRegistration (stopPlay s)) (by simpa using sclock) (by simp)
    refine ⟨?_, ?_, by simpa using sfollower⟩
    · rw [hclock, hagain]
      rfl
    · rw [hhandler, hnone]
      simpa using shandler

theorem RegistrationDropped.later {s t u : State} (h : RegistrationDropped s t) (hs : u.sched = t.sched)
    (hm : ∀ x ∈ t.relay.downQueue, x ∈ u.relay.downQueue) : RegistrationDropped s u := by
  obtain ⟨ha, hw, hi, hd⟩ := h
  exact ⟨by rw [hs, ha], by rw [hs, hw], by rw [hs, hi], fun hne => hm _ (hd hne)⟩

theorem registrationDropped_clear_stopIfPlaying (s : State) : RegistrationDropped s (clearRegistration (stopIfPlaying s)) := by
  unfold stopIfPlaying
  split
  · exact registrationDropped_clear rfl
  · exact registrationDropped_again (registrationDropped_stopPlay s)

/-- A pending mode taken up while play is not running changes the mode alone of the follower. -/
theorem applyPendingMode_follower {s : State} (h : playing s = false) : (applyPendingMode s).follower =
    { s.follower with mode := s.follower.pendingMode.getD s.follower.mode, pendingMode := none } := by
  unfold applyPendingMode
  split
  · rename_i m hm
    rw [enterMode_follower, enterMode_stop_of_not_playing h, hm]
    rfl
  · rename_i hm
    rw [hm, Option.getD_none, ← hm]

/-- Settles O32: play is stopped and the registration dropped before the confidence, the detector and the mode are reset; the second stop
of the clock finds it stopped. -/
theorem restartResetsPlayAndKeepsTheScore : Obligations.RestartResetsPlayAndKeepsTheScore := by
  unfold Obligations.RestartResetsPlayAndKeepsTheScore
  intro s tag h
  obtain ⟨hclock, hhandler, hfollower⟩ := restart_stop (withoutHead s)
  generalize hu : stopClock (clearRegistration (stopIfPlaying (withoutHead s))) true = u at hclock hhandler hfollower
  have restarted : restartPlay (withoutHead s) = applyPendingMode (restartDetector (announce s.follower.conf (recoverConf u))) := by
    rw [← hu]
    rfl
  have evolves : Evolves (withoutHead s) u := by
    rw [← hu]
    exact (evolves_stopIfPlaying _).trans ((evolves_clearRegistration _).trans (evolves_stopClock _ true))
  have later : Evolves u (restartPlay (withoutHead s)) := by
    rw [restarted]
    exact (evolves_recoverConf u).trans ((evolves_announce _ _).trans ((evolves_restartDetector _).trans (evolves_applyPendingMode _)))
  have uplay : u.follower.play = .idle := by
    rw [hfollower]
    split
    · assumption
    · rfl
  have idle : playing (restartDetector (announce s.follower.conf (recoverConf u))) = false := by
    simp [playing, recoverConf, setConf, uplay]
  have sched : (restartPlay (withoutHead s)).sched = u.sched := by
    rw [restarted]
    simp
  have detector : (restartPlay (withoutHead s)).detector = { (restDetector (withoutHead s)).detector with boostUntil := none } := by
    have kept : (recoverConf u).detector = (withoutHead s).detector := by
      rw [← hu]
      simp
    have : (restartPlay (withoutHead s)).detector = { (restDetector (announce s.follower.conf (recoverConf u))).detector with
        boostUntil := none } := by
      rw [restarted, show restartDetector (announce s.follower.conf (recoverConf u)) =
        endBoost (restDetector (announce s.follower.conf (recoverConf u))) from rfl]
      simp [endBoost]
    rw [this, restDetector_congr (s := withoutHead s) (by simpa using kept)]
  obtain ⟨hgather, hcutoff, hlast, hfresh, hchannels⟩ := restDetector_detector (withoutHead s)
  refine ⟨restartPlay (withoutHead s), exec_done h (act := restartRequest) rfl rfl rfl,
    (evolves.trans later).sameScoreAndTables (by simp), by simp, ?_, ?_, ?_, ?_, ?_, ?_, ?_, ?_, ?_, ?_, ?_, (evolves.trans later).relay.mem⟩
  · have dropped : RegistrationDropped (withoutHead s) u := by
      rw [← hu]
      exact (registrationDropped_clear_stopIfPlaying _).later (by simp) (evolves_stopClock _ true).relay.mem
    exact dropped.later sched later.relay.mem
  · have : (restartPlay (withoutHead s)).clock = u.clock := by
      rw [restarted]
      simp
    exact this.trans hclock
  · intro f
    rw [restarted, applyPendingMode_follower idle]
    simp only [restartDetector_keeps, announce_keeps, recoverConf, setConf, State.withFollower_follower, hfollower]
    rw [show (withoutHead s).follower = s.follower from rfl]
    simp only [f]
    split <;> rfl
  · intro hp d
    have purged : Purged (withoutHead s) u d := by
      rw [← hu, stopIfPlaying, if_neg (show (withoutHead s).follower.play ≠ .idle from hp)]
      refine ((purged_stopPlay (withoutHead s) d).cleared).later ?_ ?_ (.inr ?_) ?_ ?_ (evolves_stopClock _ true).relay.mem <;> simp
    exact purged.later (by rw [sched]) (by rw [sched]) (.inr (by rw [sched])) (by rw [sched]) (by rw [sched]) later.relay.mem
  · rw [detector]; exact hgather
  · rw [detector]; exact hcutoff
  · rw [detector]
  · rw [detector]; exact hlast
  · rw [detector]; exact hfresh
  · intro c
    rw [detector]
    exact hchannels c
  · intro told
    have hconf : u.follower.conf = s.follower.conf := by
      rw [hfollower]
      split <;> rfl
    rw [restarted, List.foldl_append]
    have same : (applyPendingMode (restartDetector (announce s.follower.conf (recoverConf u)))).handler =
        (told.foldl postAlert u).handler := by
      have : (applyPendingMode (restartDetector (announce s.follower.conf (recoverConf u)))).handler =
          (announce s.follower.conf (recoverConf u)).handler := by simp
      rw [this]
      by_cases hl : s.follower.conf = .locked
      · simp only [told, if_pos hl, announce]
        rw [if_pos (by simp [recoverConf, setConf, hl])]
        rfl
      · simp only [told, if_neg hl, announce]
        rw [if_neg (by simp [recoverConf, setConf, Ne.symm hl])]
        have htime : (recoverConf u).partTime = s.partTime := evolves.partTime
        rw [htime]
        exact postAlert_handler_congr (s := recoverConf u) (t := u) rfl _
    rw [same]
    exact foldl_postAlert_handler_congr hhandler told

/-! ### RESET and unreadable requests -/

/-- What is answered UNKNOWN, and with which tag and code. -/
theorem exec_unknown {s : State} {p : List Byte} (hfree : handlerFree s = true) (hhead : s.handler.buffer.head? = some p)
    (hrow : requestRow p = .unknownRequest) : exec .unknownRequest s =
      .next (replied (countFree (withoutHead s) p) (tagOf (withoutHead s) p) (codeOf (withoutHead s) p) .unknown []) := by
  obtain ⟨rest, hbuffer⟩ := List.head?_eq_some_iff.mp hhead
  have taken : exec .unknownRequest s = .next (takeUnknown s) := rfl
  rw [taken, takeUnknown, hbuffer]
  simp only [hfree, hrow, and_self, if_true]
  rfl

/-- Settles O33: what stands at the head of the buffer is answered, readable or not. -/
theorem resetAndUnknownRequestsAreAnswered : Obligations.ResetAndUnknownRequestsAreAnswered := by
  unfold Obligations.ResetAndUnknownRequestsAreAnswered
  intro s
  refine ⟨fun tag h => ?_, fun tag code args h hno => ?_, fun p hlen hhead hfree => ?_⟩
  · have answered := exec_done h (act := resetRequest) (row := .reset) rfl rfl (t := (withoutHead s).withHandler
      { (withoutHead s).handler with resetTaken := true }) (data := []) rfl
    refine ⟨answered, fun t ht => ?_⟩
    rw [answered] at ht
    injection ht with ht
    rw [← ht, replied, placeReply]
    split <;> simp [handlerFree]
  · have unread : readRequest (tag :: code :: args) = none := by
      cases hr : Req.ofCode? code.toNat with
      | none => simp [readRequest, hr]
      | some r => simp [readRequest, hr, hno r hr]
    have row : requestRow (tag :: code :: args) = .unknownRequest := by rw [requestRow, unread]
    obtain ⟨hhead, hwaiting, hreset, hresetting⟩ := h
    exact exec_unknown (by simp [handlerFree, hwaiting, hreset, hresetting]) hhead row
  · refine ⟨tagOf (withoutHead s) p, codeOf (withoutHead s) p, fun b hb => by rw [hb]; rfl, ?_⟩
    have row : requestRow p = .unknownRequest := by
      match p, hlen with
      | [], _ => rfl
      | [_], _ => rfl
    refine (exec_unknown hfree hhead row).trans ?_
    rw [countFree, if_pos hlen]
    rfl

end Machine

end Sys2Proof
end

section
/-! PROOF. The relay path and full resets (O34 to O39). -/

namespace Sys2Proof

namespace Machine

set_option Elab.async false

/-! ### The lines -/

theorem linesOpen_of_open {s : State} (hr : s.relay.resetting = false) (hb : s.relay.bypass = false) : linesOpen s = true := by
  simp [linesOpen, hr, hb]

theorem linesOpen_of_shut {s : State} (h : s.relay.resetting = true ∨ s.relay.bypass = true) : linesOpen s = false := by
  rcases h with h | h <;> simp [linesOpen, h]

theorem fromUpstream_of_shut {s : State} (h : linesOpen s = false) (bytes : List Byte) (k : Nat) (act : Frame → State) :
    fromUpstream s bytes k act = s := if_neg (by simp [h])

theorem fromUpstream_of_none {s : State} {bytes : List Byte} {k : Nat} (h : takeUpstream bytes k = none) (act : Frame → State) :
    fromUpstream s bytes k act = s := by
  rw [fromUpstream, h]
  exact ite_self _

theorem fromUpstream_of_some {s : State} (ho : linesOpen s = true) {bytes : List Byte} {k : Nat} {f : Frame}
    (h : takeUpstream bytes k = some f) (act : Frame → State) : fromUpstream s bytes k act = act f := by
  rw [fromUpstream, if_pos ho, h]

theorem takeUpstream_some {bytes : List Byte} {k : Nat} {f : Frame} (h : readFrame bytes = some f) (hk : f.kind = k)
    (hfit : fitsUpstream f = true) : takeUpstream bytes k = some f := by
  simp [takeUpstream, h, hk, hfit]

theorem takeUpstream_unread {bytes : List Byte} (h : readFrame bytes = none) (k : Nat) : takeUpstream bytes k = none := by
  simp [takeUpstream, h]

theorem takeUpstream_unfit {bytes : List Byte} {k : Nat} {f : Frame} (h : readFrame bytes = some f)
    (hno : f.kind = k → fitsUpstream f = false) : takeUpstream bytes k = none := by
  by_cases hk : f.kind = k
  · simp [takeUpstream, h, hno hk]
  · simp [takeUpstream, h, hk]

/-- No row of upstream receive takes a frame that it does not find. -/
theorem upstreamRows_idle {s : State} {bytes : List Byte}
    (h : linesOpen s = false ∨ ∀ k, k = 1 ∨ k = 2 ∨ k = 4 → takeUpstream bytes k = none) :
    ∀ row ∈ upstreamRows bytes, exec row s = .next s := by
  have idle : ∀ k, k = 1 ∨ k = 2 ∨ k = 4 → ∀ act, fromUpstream s bytes k act = s := fun k hk act =>
    h.elim (fun hs => fromUpstream_of_shut hs bytes k act) fun hn => fromUpstream_of_none (hn k hk) act
  intro row hrow
  simp only [upstreamRows, List.mem_cons, List.not_mem_nil, or_false] at hrow
  rcases hrow with rfl | rfl | rfl
  · exact congrArg Host.Outcome.next (idle 1 (by decide) _)
  · exact congrArg Host.Outcome.next (idle 2 (by decide) _)
  · exact congrArg Host.Outcome.next (idle 4 (by decide) _)

/-- A marking leaves the queue alone when the marker stands there already. -/
theorem markDue_eq (s : State) (m : Marker) : markDue s m = s.withRelay { s.relay with
    downQueue := if .marker m ∈ s.relay.downQueue then s.relay.downQueue else s.relay.downQueue ++ [.marker m] } := by
  unfold markDue
  by_cases h : .marker m ∈ s.relay.downQueue
  · rw [if_pos (List.contains_iff_mem.mpr h), if_pos h]
    rfl
  · rw [if_neg (fun hc => h (List.contains_iff_mem.mp hc)), if_neg h]

theorem Division.ofNum?_iff {n : Nat} {d : Division} : Division.ofNum? n = some d ↔ n = d.num := by
  constructor
  · intro h
    have hn : n < 4 := by
      by_contra hc
      rw [Division.ofNum?_none (not_lt.mp hc)] at h
      cases h
    obtain ⟨e, he, hnum, -⟩ := Division.ofNum?_some hn
    rw [he] at h
    cases h
    exact hnum.symm
  · rintro rfl
    cases d <;> rfl

theorem fitsUpstream_keys {f : Frame} (hk : f.kind = 1) : fitsUpstream f = true ↔ ∃ d : Division, f.addr = d.num ∧
    f.payload.length = 8 ∧ (imageOfPayload f.payload).toNat < 2 ^ (d.top + 1) := by
  rw [fitsUpstream, if_pos (show f.kind = kindKeys from hk)]
  constructor
  · intro h
    split at h
    · rename_i d hd
      simp only [Bool.and_eq_true, decide_eq_true_eq, imageInRange] at h
      exact ⟨d, Division.ofNum?_iff.mp hd, h⟩
    · cases h
  · rintro ⟨d, hd, hl, hi⟩
    have : Division.ofNum? f.addr = some d := Division.ofNum?_iff.mpr hd
    rw [this]
    simp [hl, imageInRange, hi]

theorem fitsUpstream_stops {f : Frame} (hk : f.kind = 2) : fitsUpstream f = true ↔ f.addr = 0 ∧ f.payload.length = 6 := by
  rw [fitsUpstream, if_neg (by rw [hk]; decide), if_pos (show f.kind = kindStops from hk)]
  simp

theorem fitsUpstream_manage {f : Frame} (hk : f.kind = 4) : fitsUpstream f = true := by
  rw [fitsUpstream, if_neg (by rw [hk]; decide), if_neg (by rw [hk]; decide), hk]
  rfl

/-- Settles O34: each row of upstream receive, frame by frame. -/
theorem upstreamFramesAreTakenByKind : Obligations.UpstreamFramesAreTakenByKind := by
  unfold Obligations.UpstreamFramesAreTakenByKind
  refine ⟨fun s bytes h => upstreamRows_idle (.inl (linesOpen_of_shut h)), fun s bytes hr hb => ?_⟩
  have ho := linesOpen_of_open hr hb
  refine ⟨fun f d hf hk ha hl hi => ?_, fun f hf hk ha hl => ?_,
    fun hn => upstreamRows_idle (.inr fun k _ => takeUpstream_unread hn k), fun f hf hk hbad => ?_, fun f hf hk hbad => ?_,
    fun f hf h1 h2 h4 => upstreamRows_idle (.inr fun k hk => takeUpstream_unfit hf fun he => ?_), fun f hf hk => ?_⟩
  · have taken := takeUpstream_some hf hk ((fitsUpstream_keys hk).mpr ⟨d, ha, hl, hi⟩)
    have named : Division.ofNum? f.addr = some d := Division.ofNum?_iff.mpr ha
    refine congrArg Host.Outcome.next ((fromUpstream_of_some ho taken _).trans ?_)
    simp only [named, takeKeys, markDue_eq]
    rfl
  · have taken := takeUpstream_some hf hk ((fitsUpstream_stops hk).mpr ⟨ha, hl⟩)
    refine congrArg Host.Outcome.next ((fromUpstream_of_some ho taken _).trans ?_)
    simp only [takeStops, markDue_eq]
    rfl
  · refine congrArg Host.Outcome.next (fromUpstream_of_none (takeUpstream_unfit hf fun _ => Bool.eq_false_iff.mpr fun hfit => ?_) _)
    obtain ⟨d, ha, hl, hi⟩ := (fitsUpstream_keys hk).mp hfit
    rcases hbad with hbad | hbad | ⟨e, he, hbad⟩
    · rw [ha] at hbad
      cases d <;> exact absurd hbad (by decide)
    · exact hbad hl
    · obtain rfl : d = e := by
        rw [ha] at he
        revert he
        cases d <;> cases e <;> decide
      omega
  · refine congrArg Host.Outcome.next (fromUpstream_of_none (takeUpstream_unfit hf fun _ => Bool.eq_false_iff.mpr fun hfit => ?_) _)
    obtain ⟨ha, hl⟩ := (fitsUpstream_stops hk).mp hfit
    exact hbad.elim (fun h => h ha) fun h => h hl
  · rcases hk with rfl | rfl | rfl
    · exact absurd he h1
    · exact absurd he h2
    · exact absurd he h4
  · have taken := takeUpstream_some hf hk (fitsUpstream_manage hk)
    have managed : exec (.manageFrame bytes) s = .next (takeManage s f bytes) :=
      congrArg Host.Outcome.next (fromUpstream_of_some ho taken _)
    rw [managed]
    refine ⟨fun ha hroom => ?_, fun ha hfull => ?_, fun ha hroom => ?_, fun ha hfull => ?_⟩
    · rw [takeManage, if_pos ha, bufferRequest, if_pos (show _ < Config.bufferMax from hroom)]
    · rw [takeManage, if_pos ha, bufferRequest, if_neg (show ¬_ < Config.bufferMax from not_lt.mpr hfull)]
    · rw [takeManage, if_neg ha, passThrough, if_pos (show _ < Config.passMax from hroom)]
    · rw [takeManage, if_neg ha, passThrough, if_neg (show ¬_ < Config.passMax from not_lt.mpr hfull)]

/-! ### Downstream receive -/

theorem takeDownstream_some {bytes : List Byte} {k : Nat} {f : Frame} (h : readFrame bytes = some f) (hk : f.kind = k)
    (hfit : fitsDownstream f = true) : takeDownstream bytes k = some f := by
  simp [takeDownstream, h, hk, hfit]

theorem takeDownstream_unread {bytes : List Byte} (h : readFrame bytes = none) (k : Nat) : takeDownstream bytes k = none := by
  simp [takeDownstream, h]

theorem takeDownstream_unfit {bytes : List Byte} {k : Nat} {f : Frame} (h : readFrame bytes = some f)
    (hno : f.kind = k → fitsDownstream f = false) : takeDownstream bytes k = none := by
  by_cases hk : f.kind = k
  · simp [takeDownstream, h, hno hk]
  · simp [takeDownstream, h, hk]

/-- No row of downstream receive takes a frame that it does not find. -/
theorem downstreamRows_idle {s : State} {bytes : List Byte}
    (h : receivesDown s = false ∨ ∀ k, k = 3 ∨ k = 5 ∨ k = 6 → takeDownstream bytes k = none) :
    ∀ row ∈ downstreamRows bytes, exec row s = .next s := by
  have passed : ∀ k, k = 3 ∨ k = 5 ∨ k = 6 → fromDownstream s bytes k = s := fun k hk => by
    unfold fromDownstream
    split
    · rw [(h.resolve_left (by simp [*])) k hk]
    · rfl
  have reported : ∀ kind act, chestFrame s bytes kind act = s := fun kind act => by
    unfold chestFrame
    split
    · rw [show takeDownstream bytes kindChest = none from (h.resolve_left (by simp [*])) 3 (by decide)]
    · rfl
  intro row hrow
  simp only [downstreamRows, List.mem_cons, List.not_mem_nil, or_false] at hrow
  rcases hrow with rfl | rfl | rfl | rfl | rfl | rfl
  · exact congrArg Host.Outcome.next (passed 5 (by decide))
  · exact congrArg Host.Outcome.next (passed 6 (by decide))
  · exact congrArg Host.Outcome.next (reported _ _)
  · exact congrArg Host.Outcome.next (reported _ _)
  · exact congrArg Host.Outcome.next (reported _ _)
  · exact congrArg Host.Outcome.next (reported _ _)

theorem receivesDown_of_shut {s : State} (h : s.relay.resetting = true ∨ s.relay.bypass = true ∨ s.relay.downReceiving = false) :
    receivesDown s = false := by
  rcases h with h | h | h <;> simp [receivesDown, linesOpen, h]

theorem receivesDown_of_open {s : State} (hr : s.relay.resetting = false) (hb : s.relay.bypass = false)
    (hd : s.relay.downReceiving = true) : receivesDown s = true := by
  simp [receivesDown, linesOpen, hr, hb, hd]

theorem fromDownstream_forwards {s : State} (ho : receivesDown s = true) {bytes : List Byte} {k : Nat} {f : Frame}
    (h : takeDownstream bytes k = some f) : fromDownstream s bytes k = forwardUp s bytes := by
  rw [fromDownstream, if_pos ho, h]

/-- Settles O35: each row of downstream receive, frame by frame. -/
theorem downstreamFramesAreForwardedOrDiscarded : Obligations.DownstreamFramesAreForwardedOrDiscarded := by
  unfold Obligations.DownstreamFramesAreForwardedOrDiscarded
  refine ⟨fun s bytes h => downstreamRows_idle (.inl (receivesDown_of_shut h)), fun s bytes hr hb hd => ?_⟩
  have ho := receivesDown_of_open hr hb hd
  refine ⟨fun f hf hk => ?_, fun f hf hk => ?_, rfl, fun row hrow => ⟨fun hn => ?_, fun f hf hk hl => ?_, fun f hf h3 h5 h6 => ?_⟩⟩
  · exact congrArg Host.Outcome.next (fromDownstream_forwards ho (takeDownstream_some hf hk (by simp [fitsDownstream, hk, kindReply, kindChest])))
  · exact congrArg Host.Outcome.next (fromDownstream_forwards ho (takeDownstream_some hf hk
      (by simp [fitsDownstream, hk, kindReply, kindChest, kindAlert])))
  · exact downstreamRows_idle (.inr fun k _ => takeDownstream_unread hn k) row hrow
  · refine downstreamRows_idle (.inr fun k _ => takeDownstream_unfit hf fun _ => ?_) row hrow
    simp [fitsDownstream, hk, kindChest, hl]
  · refine downstreamRows_idle (.inr fun k hk => takeDownstream_unfit hf fun he => ?_) row hrow
    rcases hk with rfl | rfl | rfl
    · exact absurd he h3
    · exact absurd he h5
    · exact absurd he h6

end Machine

end Sys2Proof
end

section
/-! PROOF. The two transmitters and full resets (O36 to O39). -/

namespace Sys2Proof

namespace Machine

set_option Elab.async false

/-! ### The downstream transmitter -/

theorem outBytes_length (n x : Nat) : (outBytes n x).length = n := by
  induction n generalizing x with
  | zero => rfl
  | succ n ih => rw [outBytes, List.length_cons, ih]

theorem inBytes_outBytes (n x : Nat) : inBytes (outBytes n x) = x % 256 ^ n := by
  induction n generalizing x with
  | zero => rw [outBytes, inBytes, pow_zero, Nat.mod_one]
  | succ n ih =>
    rw [outBytes, inBytes, ih, BitVec.toNat_ofNat, pow_succ' 256 n, Nat.mod_mul]

theorem imageOfPayload_outBytes (b : BitVec 64) : imageOfPayload (outBytes 8 b.toNat) = b := by
  have h : b.toNat % 256 ^ 8 = b.toNat := Nat.mod_eq_of_lt b.isLt
  rw [imageOfPayload, inBytes_outBytes, h, BitVec.ofNat_toNat, BitVec.setWidth_eq]

theorem stopsOfPayload_outBytes (b : BitVec 48) : stopsOfPayload (outBytes 6 b.toNat) = b := by
  have h : b.toNat % 256 ^ 6 = b.toNat := Nat.mod_eq_of_lt b.isLt
  rw [stopsOfPayload, inBytes_outBytes, h, BitVec.ofNat_toNat, BitVec.setWidth_eq]

theorem merges_iff (m : Mode) : merges m = true ↔ m = .follow ∨ m = .steady := by
  cases m <;> decide

theorem takeDown_of_shut {s : State} (h : linesOpen s = false) : takeDown s = s := by
  rw [takeDown, h]

/-- Settles O36: the frame formed for a marker reads back as the image sent. -/
theorem downstreamTakeMergesConsoleAndPlayback : Obligations.DownstreamTakeMergesConsoleAndPlayback := by
  unfold Obligations.DownstreamTakeMergesConsoleAndPlayback
  intro s
  refine ⟨fun h => congrArg Host.Outcome.next (takeDown_of_shut (linesOpen_of_shut h)), fun hr hb hlane item rest hq => ?_, rfl⟩
  have taken : takeDown s = s.withRelay { s.relay with downQueue := rest, downLane := some (formItem s item) } := by
    rw [takeDown, linesOpen_of_open hr hb, hlane, hq]
  have merged : (if s.follower.mode = .follow ∨ s.follower.mode = .steady then true else false) = merges s.follower.mode := by
    rw [Bool.eq_iff_iff, merges_iff]
    simp
  refine ⟨formItem s item, congrArg Host.Outcome.next taken, fun b hb => by rw [hb]; rfl, fun d hd => ?_, fun hd => ?_⟩
  · subst hd
    refine ⟨_, readFrame_formFrame (by decide) (by cases d <;> decide) (by rw [outBytes_length]; decide), rfl, rfl, ?_, fun k hk => ?_⟩
    · rw [imageOfPayload_outBytes, sentKeys]
      simp only [merges_iff]
    · rw [imageOfPayload_outBytes, sentKeys, BitVec.getLsbD_or, hk, Bool.true_or]
  · subst hd
    refine ⟨_, readFrame_formFrame (by decide) (by decide) (by rw [outBytes_length]; decide), rfl, rfl, ?_⟩
    rw [stopsOfPayload_outBytes, sentStops]
    simp only [merges_iff]

/-! ### The upstream transmitter -/

theorem takeUp_of_shut {s : State} (h : linesOpen s = false) : takeUp s = s := by
  rw [takeUp, h]

theorem takeUp_forward {s : State} (ho : linesOpen s = true) (hl : s.relay.upLane = none) {f : List Byte} {rest : List (List Byte)}
    (hf : s.relay.forward = f :: rest) :
    takeUp s = s.withRelay { s.relay with forward := rest, upLane := some { bytes := f, endsInReset := false } } := by
  rw [takeUp, ho, hl, hf]

theorem takeUp_reply {s : State} (ho : linesOpen s = true) (hl : s.relay.upLane = none) (hf : s.relay.forward = []) {r : Reply}
    (hs : s.relay.slot = some r) : takeUp s = takeReply s r := by
  rw [takeUp, ho, hl, hf, hs]

theorem takeUp_alert {s : State} (ho : linesOpen s = true) (hl : s.relay.upLane = none) (hf : s.relay.forward = [])
    (hs : s.relay.slot = none) {a : Alert} {rest : List Alert} (ha : s.handler.alerts = a :: rest) :
    takeUp s = takeAlert s a rest := by
  rw [takeUp, ho, hl, hf, hs, ha]

/-- The lane, the slot and the flag as a reply is taken, before the slot is filled again. -/
def replyTaken (s : State) (r : Reply) : State :=
  (s.withRelay { s.relay with
      slot := none
      upLane := some { bytes := formFrame 5 s.relay.node.toNat ([r.tag, r.code, byte r.result.code] ++ r.data)
                       endsInReset := decide (r.code = 114#8) && decide (r.result = .done) } }).withHandler
    { s.handler with alertsLost := s.handler.alertsLost && !r.clearsLost }

theorem takeReply_eq (s : State) (r : Reply) : takeReply s r = refillSlot (replyTaken s r) := by
  unfold takeReply replyTaken
  cases hc : r.clearsLost with
  | true =>
    simp only [if_true, Bool.not_true, Bool.and_false]
    rfl
  | false =>
    simp only [Bool.false_eq_true, if_false, Bool.not_false, Bool.and_true]
    rfl

/-- With no reply of the controller the handler's takes the slot, if it has one. -/
theorem refillSlot_of_no_ctl {s : State} (hslot : s.relay.slot = none) (hr : s.ctl.reply = none) : refillSlot s =
    (s.withRelay { s.relay with slot := s.handler.waiting }).withHandler { s.handler with waiting := none } := by
  rw [refillSlot, placeCtlReply_of_none hr, placeWaiting, hslot]
  cases hw : s.handler.waiting with
  | some r => rfl
  | none =>
    calc s = (s.withRelay { s.relay with slot := s.relay.slot }).withHandler { s.handler with waiting := s.handler.waiting } := rfl
      _ = _ := by rw [hslot, hw]

theorem loseAlert_handler (s : State) : (loseAlert s).handler = { s.handler with
    alertsLost := true, waiting := s.handler.waiting.map fun r => { r with clearsLost := false } } := rfl

theorem loseAlert_relay (s : State) :
    (loseAlert s).relay = { s.relay with slot := s.relay.slot.map fun r => { r with clearsLost := false } } := rfl

theorem postAlert_of_full {s : State} (h : 16 ≤ s.handler.alerts.length) (a : Alert) : postAlert s a = loseAlert s :=
  if_neg (show ¬s.handler.alerts.length < Config.alertMax from not_lt.mpr h)

/-- With a reply of the controller waiting, that one takes the empty slot; the handler's stays where it is. -/
theorem refillSlot_of_ctl {s : State} (hslot : s.relay.slot = none) {q : Reply} (hr : s.ctl.reply = some q) :
    (refillSlot s).relay.slot.map Reply.data = some q.data ∧ (refillSlot s).ctl.reply = none ∧
      (refillSlot s).handler.waiting.map Reply.data = s.handler.waiting.map Reply.data := by
  have placed : (placeCtlReply s).relay.slot.map Reply.data = some q.data ∧ (placeCtlReply s).ctl.reply = none ∧
      (placeCtlReply s).handler.waiting.map Reply.data = s.handler.waiting.map Reply.data := by
    rw [placeCtlReply_of_room hslot hr]
    split
    · have joins := evolves_toReady ((s.withRelay { s.relay with slot := some q }).withCtl { s.ctl with reply := none })
      exact ⟨joins.relay.slot, congrArg Controller.reply joins.ctl, joins.handler.waiting⟩
    · exact ⟨rfl, rfl, rfl⟩
  have full : ∃ r, (placeCtlReply s).relay.slot = some r := by
    obtain ⟨hd, -⟩ := placed
    obtain ⟨r, hr, -⟩ := Option.map_eq_some_iff.mp hd
    exact ⟨r, hr⟩
  obtain ⟨r, hfull⟩ := full
  have same : refillSlot s = placeCtlReply s := by
    rw [refillSlot, placeWaiting, hfull]
  rwa [same]

/-- Settles O37: the transmitter's choice by precedence, the refilling of the slot, and the loss of an alert. -/
theorem upstreamTakesByPrecedence : Obligations.UpstreamTakesByPrecedence := by
  unfold Obligations.UpstreamTakesByPrecedence
  refine ⟨fun s h => congrArg Host.Outcome.next (takeUp_of_shut (linesOpen_of_shut h)), fun s hr hb => ?_⟩
  have ho := linesOpen_of_open hr hb
  refine ⟨fun hl f rest hf => congrArg Host.Outcome.next (takeUp_forward ho hl hf), fun hl hf r hs hc => ?_, fun hl hf r q hs hc => ?_,
    fun hl hf hs a rest ha => congrArg Host.Outcome.next (takeUp_alert ho hl hf hs ha), fun f hf hno => ?_, fun hfull => ?_,
    fun hroom a => postAlert_of_room hroom a⟩
  · refine congrArg Host.Outcome.next ((takeUp_reply ho hl hf hs).trans ?_)
    rw [takeReply_eq, refillSlot_of_no_ctl (s := replyTaken s r) rfl hc]
    rfl
  · refine ⟨_, congrArg Host.Outcome.next (takeUp_reply ho hl hf hs), ?_⟩
    rw [takeReply_eq]
    exact refillSlot_of_ctl (s := replyTaken s r) rfl hc
  · have : sentUp s = s.withRelay { s.relay with upLane := none } := by
      rw [sentUp, hf]
      simp [hno]
    exact congrArg Host.Outcome.next this
  · intro kept lost
    have isLost : ∀ t : State, t.handler = s.handler → t.relay = s.relay → lost (loseAlert t) := fun t ht hrel =>
      ⟨by rw [loseAlert_handler, ht], by rw [loseAlert_relay, hrel]⟩
    refine ⟨fun a => by rw [postAlert_of_full hfull]; exact isLost s rfl rfl, fun a hfresh harr hage => ?_, fun r a hl hf hs hc => ?_⟩
    · have hdue : staleDue s = true := by
        rw [staleDue, hfresh, harr]
        exact decide_eq_true hage
      refine ⟨_, exec_of_due (act := becomeStale s) rfl hdue hr, ?_⟩
      rw [becomeStale, postAlert_of_full (by simpa using hfull)]
      exact ⟨isLost _ (by simp) (by simp), rfl⟩
    · rw [postAlert_of_full hfull]
      have slot : (loseAlert s).relay.slot = some { r with clearsLost := false } := by rw [loseAlert_relay, hs]; rfl
      have open_ : linesOpen (loseAlert s) = true := ho
      refine ⟨_, congrArg Host.Outcome.next (takeUp_reply open_ hl hf slot), ?_⟩
      rw [takeReply_eq, refillSlot_of_no_ctl (s := replyTaken (loseAlert s) _) rfl hc]
      rfl

/-! ### Full resets -/

theorem stops_reset (four : Bool) (n : Fin 48) : vget (Tables.reset four).stops n = StopEntry.reset n.val := by
  simp [vget, Tables.reset]

/-- While a reset runs or bypass is asserted nothing is taken from a lane and nothing for sending. -/
theorem shut_idle {s : State} (h : s.relay.resetting = true ∨ s.relay.bypass = true) (bytes : List Byte) :
    ∀ row ∈ upstreamRows bytes ++ downstreamRows bytes ++ [.downstreamTake, .upstreamTake, .downstreamReceiveStart],
      exec row s = .next s := by
  intro row hrow
  have hshut := linesOpen_of_shut h
  simp only [List.mem_append, List.mem_cons, List.not_mem_nil, or_false] at hrow
  rcases hrow with (hrow | hrow) | rfl | rfl | rfl
  · exact upstreamRows_idle (.inl hshut) row hrow
  · exact downstreamRows_idle (.inl (by simp [receivesDown, hshut])) row hrow
  · exact congrArg Host.Outcome.next (takeDown_of_shut hshut)
  · exact congrArg Host.Outcome.next (takeUp_of_shut hshut)
  · exact congrArg Host.Outcome.next (if_pos (by simpa using h))

/-- Settles O38: all three causes begin the same reset, which sets every block outright. -/
theorem fullResetClearsEveryBlock : Obligations.FullResetClearsEveryBlock := by
  unfold Obligations.FullResetClearsEveryBlock
  intro s
  refine ⟨beginReset s .power, beginReset (s.withPins { s.pins with resetLine := true }) .line, beginReset s .command, rfl, rfl,
    fun f hf he => ?_, rfl, rfl, rfl, rfl, fun r hr => ?_⟩
  · have : sentUp s = beginReset s .command := by
      rw [sentUp, hf]
      exact if_pos he
    exact congrArg Host.Outcome.next this
  · obtain ⟨x, c, hx, hd, hp⟩ : ∃ x c, r = beginReset x c ∧ x.detector = s.detector ∧ x.partTime = s.partTime := by
      simp only [List.mem_cons, List.not_mem_nil, or_false] at hr
      rcases hr with rfl | rfl | rfl
      · exact ⟨_, _, rfl, rfl, rfl⟩
      · exact ⟨_, _, rfl, rfl, rfl⟩
      · exact ⟨_, _, rfl, rfl, rfl⟩
    subst hx
    rw [← hd, ← hp]
    have hsched : (beginReset x c).sched = Sched.reset := rfl
    refine ⟨?_, fun l hl => ⟨?_, ?_, ?_⟩, fun n => ?_, rfl, rfl, rfl, rfl, rfl, fun k => ?_, fun d => ?_, rfl, rfl, rfl, fun d => ?_,
      fun d => ⟨queue_of_reset hsched d, ?_, ?_, fun k => ⟨holds_of_reset hsched d k, ?_⟩⟩, rfl, rfl, rfl, rfl, fun i => ?_,
      stops_reset _, rfl, rfl, rfl, rfl, rfl, rfl, rfl, rfl, rfl, rfl, rfl, rfl, rfl, rfl, rfl, rfl, rfl, fun d => ?_, rfl, rfl, rfl, rfl,
      rfl, fun bytes row hrow => ?_⟩
    · rw [chain_of_reset rfl, if_pos rfl]
    · rw [chain_of_reset rfl, if_neg hl]
    · simp [phraseLength, beginReset, Store.reset]
    · simp [listLocked, beginReset, Follower.reset]
    · simp [stepRec, beginReset, Store.reset]
    · simp [beginReset, Tables.reset]
    · simp [beginReset, Tables.reset]
    · simp [overridden, latched, beginReset, Protection.reset]
    · have none_ : heldKeys ((beginReset x c).sched.holds.get d) = [] := by
        rw [List.eq_nil_iff_forall_not_mem]
        intro k hk
        rw [mem_heldKeys, holds_of_reset hsched d k] at hk
        exact absurd hk (by decide)
      rw [playImage, none_]
      rfl
    · simp [beginReset, Sched.reset]
    · simp [beginReset, Sched.reset]
    · simp [planEntry, beginReset, Tables.reset]
    · simp [beginReset, Relay.inReset]
    · have shut := shut_idle (s := beginReset x c) (.inr rfl) bytes
      simp only [List.mem_append, List.mem_cons, List.not_mem_nil, or_false] at hrow shut
      rcases hrow with hrow | rfl | rfl | rfl | rfl
      · exact shut row (.inl hrow)
      · exact shut _ (.inr (.inl rfl))
      · exact shut _ (.inr (.inr (.inl rfl)))
      · rfl
      · exact shut _ (.inr (.inr (.inr rfl)))

/-- Settles O39: the end of a reset takes the straps; the lines stay shut until bypass is released. -/
theorem resetEndLatchesTheStraps : Obligations.ResetEndLatchesTheStraps := by
  unfold Obligations.ResetEndLatchesTheStraps
  intro s straps four
  refine ⟨fun hr => ⟨endReset s straps four, congrArg Host.Outcome.next (if_pos hr), rfl, rfl, rfl, rfl, rfl, rfl,
    fun hb => shut_idle (.inr hb), fun hshut => ?_, fun i => ?_, rfl, rfl, rfl, rfl, rfl, rfl, rfl⟩, fun hr => ?_, rfl, fun hr hb => ?_,
    fun h => congrArg Host.Outcome.next (if_pos (by simpa using h))⟩
  · obtain ⟨hbypass, hlanes⟩ := hshut
    obtain ⟨-, hdown, hup⟩ := hlanes (hbypass hr)
    exact ⟨_, rfl, rfl, hdown, hup⟩
  · simp [planEntry, endReset, PlanEntry.reset, availableMask]
  · exact congrArg Host.Outcome.next (if_neg (by simp [hr]))
  · exact congrArg Host.Outcome.next (if_neg (by simp [hr, hb]))

end Machine

end Sys2Proof
end

section
/-! PROOF. Chest reports (O40, O41): what a report leaves, whether it latches, escalates, overrides or lifts. -/

namespace Sys2Proof

namespace Machine

set_option Elab.async false

/-! ### What only marks frames -/

/-- The relay path of `t` is that of `s`, but for its downstream queue. -/
def MarksOnly (s t : State) : Prop := t.relay = { s.relay with downQueue := t.relay.downQueue }

theorem MarksOnly.of_same {s t : State} (h : t.relay = s.relay) : MarksOnly s t := by
  unfold MarksOnly
  rw [h]

theorem MarksOnly.trans {s t u : State} (h1 : MarksOnly s t) (h2 : MarksOnly t u) : MarksOnly s u := by
  unfold MarksOnly at *
  rw [h2, h1]

theorem marksOnly_markDue (s : State) (m : Marker) : MarksOnly s (markDue s m) := by
  unfold MarksOnly
  rw [markDue_relay]

theorem marksOnly_reformStops (s : State) : MarksOnly s (reformStops s) := by
  unfold reformStops
  simp only
  split
  · exact .of_same rfl
  · exact (MarksOnly.of_same (s := s) rfl).trans (marksOnly_markDue _ _)

theorem marksOnly_setActive (s : State) (k : Option SetNo) : MarksOnly s (setActive s k) :=
  (MarksOnly.of_same (s := s) rfl).trans (marksOnly_reformStops _)

theorem marksOnly_clearRegistration (s : State) : MarksOnly s (clearRegistration s) :=
  (MarksOnly.of_same (s := s) (t := s.withSched { s.sched with switched := none }) rfl).trans
    (marksOnly_setActive (s.withSched { s.sched with switched := none }) none)

theorem marksOnly_purge (s : State) (d : Division) : MarksOnly s (purge s d) := by
  unfold purge
  simp only
  split
  · exact .of_same rfl
  · exact (MarksOnly.of_same (s := s) rfl).trans (marksOnly_markDue _ _)

theorem marksOnly_purges (skip : Division → Bool) (ds : List Division) (s : State) :
    MarksOnly s (ds.foldl (fun a e => if skip e then a else purge a e) s) := by
  induction ds generalizing s with
  | nil => exact .of_same rfl
  | cons e ds ih =>
    refine MarksOnly.trans ?_ (ih _)
    simp only
    split
    · exact .of_same rfl
    · exact marksOnly_purge s e

theorem marksOnly_purgeAll (s : State) : MarksOnly s (purgeAll s) := marksOnly_purges (fun _ => false) Division.all s

theorem marksOnly_switchIfFinished (s : State) (i : EntryNo) : MarksOnly s (switchIfFinished s i) := by
  unfold switchIfFinished
  split
  · split
    · unfold makeSwitch
      split
      · rename_i k _
        exact (MarksOnly.of_same (s := s) (t := s.withSched { s.sched with switched := some i }) rfl).trans
          (marksOnly_setActive (s.withSched { s.sched with switched := some i }) (some k))
      · exact .of_same rfl
    · exact .of_same rfl
  · exact .of_same rfl

theorem marksOnly_waitingSwitches (s : State) : MarksOnly s (waitingSwitches s) := by
  have next : ∀ u, MarksOnly s u → MarksOnly s (match engagedIndex u with
      | some j => switchIfFinished u j
      | none => u) := fun u hu => by
    split
    · exact hu.trans (marksOnly_switchIfFinished u _)
    · exact hu
  refine next _ ?_
  split
  · exact marksOnly_switchIfFinished s _
  · exact .of_same rfl

/-- A stop of play touches the relay path by its BEAT alert and by marks. -/
theorem marksOnly_stopPlay (s : State) : MarksOnly (stopClock s true) (stopPlay s) :=
  (MarksOnly.of_same (s := stopClock s true) (t := idleFollower (stopClock s true)) (by simp)).trans
    ((marksOnly_purgeAll _).trans ((MarksOnly.of_same (t := discardWalks _) (by simp)).trans (marksOnly_clearRegistration _)))

/-- The stop frame is marked due between `s` and `t` if the stop image changed. -/
def StopMarked (s t : State) : Prop := t.sched.stopImage ≠ s.sched.stopImage → .marker .stops ∈ t.relay.downQueue

theorem StopMarked.of_same {s t : State} (h : t.sched.stopImage = s.sched.stopImage) : StopMarked s t := fun hne => absurd h hne

theorem StopMarked.trans {s t u : State} (h1 : StopMarked s t) (h2 : StopMarked t u)
    (hm : ∀ x ∈ t.relay.downQueue, x ∈ u.relay.downQueue) : StopMarked s u := fun hne => by
  by_cases h : u.sched.stopImage = t.sched.stopImage
  · exact hm _ (h1 fun he => hne (h.trans he))
  · exact h2 h

theorem stopMarked_reformStops (s : State) : StopMarked s (reformStops s) := fun hne =>
  reformStops_marks (by rwa [reformStops_stopImage] at hne)

theorem stopMarked_setActive (s : State) (k : Option SetNo) : StopMarked s (setActive s k) :=
  stopMarked_reformStops (s.withSched { s.sched with active := k })

theorem stopMarked_switchIfFinished (s : State) (i : EntryNo) : StopMarked s (switchIfFinished s i) := by
  unfold switchIfFinished
  split
  · split
    · unfold makeSwitch
      split
      · exact stopMarked_setActive (s.withSched { s.sched with switched := some i }) _
      · exact .of_same rfl
    · exact .of_same rfl
  · exact .of_same rfl

theorem stopMarked_waitingSwitches (s : State) : StopMarked s (waitingSwitches s) := by
  have next : ∀ u, StopMarked s u → StopMarked s (match engagedIndex u with
      | some j => switchIfFinished u j
      | none => u) := fun u hu => by
    split
    · exact hu.trans (stopMarked_switchIfFinished u _) (evolves_switchIfFinished u _).relay.mem
    · exact hu
  refine next _ ?_
  split
  · exact stopMarked_switchIfFinished s _
  · exact .of_same rfl

/-- With no entry in play no switch waits. -/
theorem waitingSwitches_of_no_entry {s : State} (h : s.follower.current = none) : waitingSwitches s = s := by
  have none_ : engagedIndex s = none := by rw [engagedIndex, h]
  unfold waitingSwitches
  rw [h]
  cases cancelled s <;> simp only [none_]

/-- A division purged twice is as the first purge left it. -/
theorem Purged.again {s t u : State} {d : Division} (h : Purged s t d) (h' : Purged t u d)
    (hm : ∀ x ∈ t.relay.downQueue, x ∈ u.relay.downQueue) : Purged s u d := by
  obtain ⟨-, -, -, hholds, hkeys, hmark⟩ := h
  obtain ⟨hq, hc, hw, hh, hk, -⟩ := h'
  refine ⟨hq, hc, hw, hh, fun k => ?_, fun hex => hm _ (hmark hex)⟩
  rw [hk, hholds, if_neg (by decide), hkeys]

/-! ### The frame of a report -/

/-- The forward queue after a frame has been handed to it. -/
def forwarded (s : State) (bytes : List Byte) : List (List Byte) :=
  if s.relay.forward.length < 8 then s.relay.forward ++ [bytes] else s.relay.forward

theorem forwardUp_eq (s : State) (bytes : List Byte) : forwardUp s bytes = s.withRelay { s.relay with forward := forwarded s bytes } := by
  unfold forwardUp forwarded Config.forwardMax
  split <;> rfl

theorem chestFrame_takes {s : State} (ho : receivesDown s = true) {bytes : List Byte} {f : Frame} (hf : readFrame bytes = some f)
    (hk : f.kind = 3) {report key : Byte} (hp : f.payload = [report, key]) (act : State → Nat → Nat → State) :
    chestFrame s bytes report.toNat act = forwardUp (act s f.addr key.toNat) bytes := by
  have taken : takeDownstream bytes kindChest = some f :=
    takeDownstream_some hf hk (by simp [fitsDownstream, hk, kindChest, hp])
  rw [chestFrame, if_pos ho, taken]
  simp only [hp, byteAt_cons_zero, byteAt_cons_succ, if_true]

end Machine

end Sys2Proof
end

section
/-! PROOF. The settling of the chest reports (O40, O41). -/

namespace Sys2Proof

namespace Machine

set_option Elab.async false

theorem purges_keep (skip : Division → Bool) (ds : List Division) (s : State) :
    (ds.foldl (fun a e => if skip e then a else purge a e) s).handler = s.handler ∧
      (ds.foldl (fun a e => if skip e then a else purge a e) s).follower = s.follower ∧
      (ds.foldl (fun a e => if skip e then a else purge a e) s).sched.active = s.sched.active ∧
      (ds.foldl (fun a e => if skip e then a else purge a e) s).sched.stopImage = s.sched.stopImage := by
  induction ds generalizing s with
  | nil => exact ⟨rfl, rfl, rfl, rfl⟩
  | cons e ds ih =>
    obtain ⟨hh, hf, ha, hi⟩ := ih (if skip e then s else purge s e)
    rw [List.foldl_cons, hh, hf, ha, hi]
    split
    · exact ⟨rfl, rfl, rfl, rfl⟩
    · refine ⟨by simp, by simp, ?_, purge_stopImage s e⟩
      unfold purge
      split <;> simp

/-- What a report leaves of the alerts and the relay path, when there is room for its alert. -/
theorem report_posted {s u t : State} {c : FaultCause} {d : Option Division} {k : Option Key} {bytes : List Byte}
    (hroom : s.handler.alerts.length < 16) (hu : u.handler = s.handler) (ht : u.partTime = s.partTime) (hr : MarksOnly s u)
    (htp : t.prot = u.prot) (hth : t.handler = (postFault u c d k).handler) (htr : MarksOnly (postFault u c d k) t) :
    (forwardUp t bytes).handler = { s.handler with
        alerts := s.handler.alerts ++ [.fault c d k (latchedSet (forwardUp t bytes)) (protectionByte (forwardUp t bytes)) s.partTime] } ∧
      (forwardUp t bytes).relay = { s.relay with forward := forwarded s bytes, downQueue := (forwardUp t bytes).relay.downQueue } := by
  have hp : (forwardUp t bytes).prot = u.prot := by simp [htp]
  have room : u.handler.alerts.length < 16 := by rwa [hu]
  constructor
  · rw [latchedSet_of_prot hp, protectionByte_of_prot hp]
    have hposted : (forwardUp t bytes).handler = (postFault u c d k).handler := by simp [hth]
    rw [hposted, postFault, postAlert_of_room room, State.withHandler_handler, hu, ht]
  · have posted : MarksOnly u (postFault u c d k) := .of_same (by rw [postFault, postAlert_of_room room]; rfl)
    have marks : MarksOnly s t := hr.trans (posted.trans htr)
    have hforward : forwarded t bytes = forwarded s bytes := by
      unfold forwarded
      rw [marks]
    rw [forwardUp_eq, hforward, State.withRelay_relay, marks]

/-- The row of a chest report runs its report, then hands the frame on. -/
theorem exec_chest {s : State} {row : Instr} {bytes : List Byte} {f : Frame} {report key : Byte} {act : State → Nat → Nat → State}
    (hx : exec row s = .next (chestFrame s bytes report.toNat act)) (ho : receivesDown s = true) (hf : readFrame bytes = some f)
    (hk : f.kind = 3) (hp : f.payload = [report, key]) : exec row s = .next (forwardUp (act s f.addr key.toNat) bytes) := by
  rw [hx, chestFrame_takes ho hf hk hp]

theorem Purged.switched {s t u : State} {d : Division} (h : Purged s t d) (ha : SameActions t u)
    (hm : ∀ x ∈ t.relay.downQueue, x ∈ u.relay.downQueue) : Purged s u d :=
  h.later (by rw [ha]) (by rw [ha]) (.inr (by rw [ha])) (by rw [ha]) (by rw [ha]) hm

theorem forwardUp_downQueue (s : State) (bytes : List Byte) : (forwardUp s bytes).relay.downQueue = s.relay.downQueue := by
  rw [forwardUp_eq]
  rfl

theorem Purged.forwarded {s t : State} {d : Division} (h : Purged s t d) (bytes : List Byte) : Purged s (forwardUp t bytes) d :=
  h.switched (by simp [SameActions]) fun x hx => by rwa [forwardUp_downQueue]

theorem StopsFormed.forwarded {s : State} (h : StopsFormed s) (bytes : List Byte) : StopsFormed (forwardUp s bytes) := by
  unfold StopsFormed
  rw [formedImage_of_blocks (s := s) (by simp) (by simp) (by simp), show (forwardUp s bytes).sched = s.sched by simp]
  exact h

/-- The state in which a WIND-LOW report is announced. -/
def windPurged (s : State) : State :=
  Division.all.foldl (fun a d => if overridden s d then a else purge a d) (s.withProt { s.prot with windLow := true })

theorem windLow_eq {s : State} (h : s.prot.windLow = false) :
    windLow s = waitingSwitches (postFault (windPurged s) .windLow none none) := if_neg (by simp [h])

theorem evolves_windPurged (s : State) : Evolves (s.withProt { s.prot with windLow := true }) (windPurged s) :=
  evolves_foldl (fun a d => .ite (fun _ => .refl a) fun _ => evolves_purge a d) Division.all _

/-- Settles O41: the overrides come and go with the wind; each division is purged as it comes under override and resumed as it leaves. -/
theorem windReportsOverrideAndLift : Obligations.WindReportsOverrideAndLift := by
  unfold Obligations.WindReportsOverrideAndLift
  intro s bytes f key hr hb hd hf hk forward kept
  have ho := receivesDown_of_open hr hb hd
  refine ⟨fun hp => ?_, fun hp => ?_⟩
  · have run : exec (.windLow bytes) s = .next (forwardUp (windLow s) bytes) :=
      exec_chest (act := fun x _ _ => windLow x) rfl ho hf hk hp
    refine ⟨fun hw => ?_, fun hw => ?_⟩
    · rw [run, windLow, if_pos hw, forwardUp_eq]
      rfl
    · obtain ⟨hh, hfol, hact, himg⟩ := purges_keep (overridden s) Division.all (s.withProt { s.prot with windLow := true })
      have evolves := evolves_windPurged s
      have later : Evolves (windPurged s) (windLow s) := by
        rw [windLow_eq hw]
        exact (evolves_postFault _ _ _ _).trans (evolves_waitingSwitches _)
      have hprot : (forwardUp (windLow s) bytes).prot = { s.prot with windLow := true } := by
        simpa using (evolves.trans later).prot
      have actions : SameActions (windPurged s) (windLow s) := by
        rw [windLow_eq hw]
        have posted : SameActions (windPurged s) (postFault (windPurged s) .windLow none none) := by simp [SameActions, postFault]
        exact posted.trans (waitingSwitches_actions _)
      refine ⟨_, run, ⟨by rw [hprot], by rw [hprot], by simp, by simp, by simp, by simp, by simp, by simp, fun hformed => ?_,
        fun hroom => ?_⟩, by rw [hprot], fun d => ?_, fun d hclear => ?_, fun d hlatched => ?_, fun hnone => ?_⟩
      · exact StopsFormed.forwarded (later.stops (evolves.stops hformed)) bytes
      · have purges := marksOnly_purges (overridden s) Division.all (s.withProt { s.prot with windLow := true })
        exact report_posted (u := windPurged s) (c := .windLow) (d := none) (k := none) hroom hh evolves.partTime purges later.prot (by rw [windLow_eq hw]; simp)
          (by rw [windLow_eq hw]; exact marksOnly_waitingSwitches _)
      · rw [overridden, hprot, Bool.or_true]
      · have free : overridden s d = false := by simp [overridden, latched, hclear, hw]
        have purged := (purged_purges (overridden s) Division.all (by decide) (s.withProt { s.prot with windLow := true }) d).1
          (mem_divisionAll d) free
        exact ((purged.of_same (s := s) rfl rfl rfl).switched actions later.relay.mem).forwarded bytes
      · have inForce : overridden s d = true := by
          obtain ⟨r, hr⟩ := Option.ne_none_iff_exists'.mp hlatched
          simp [overridden, latched, hr]
        obtain ⟨hq, hholds, -⟩ := (purged_purges (overridden s) Division.all (by decide) (s.withProt { s.prot with windLow := true }) d).2
          (.inr inForce)
        have hsched : (forwardUp (windLow s) bytes).sched = (windLow s).sched := by simp
        rw [queue, hsched, actions]
        exact ⟨hq, hholds⟩
      · have same : windLow s = postFault (windPurged s) .windLow none none := by
          rw [windLow_eq hw, waitingSwitches_of_no_entry]
          have : (postFault (windPurged s) .windLow none none).follower = (windPurged s).follower := by simp [postFault]
          rw [this, show (windPurged s).follower = s.follower from hfol]
          exact hnone
        have hsched : (forwardUp (windLow s) bytes).sched = (windPurged s).sched := by rw [same]; simp [postFault]
        rw [hsched]
        exact ⟨hact, himg⟩
  · have run : exec (.windOk bytes) s = .next (forwardUp (windOk s) bytes) :=
      exec_chest (act := fun x _ _ => windOk x) rfl ho hf hk hp
    refine ⟨fun hw => ?_, fun hw => ?_⟩
    · rw [run, windOk, if_neg (by simp [hw]), forwardUp_eq]
      rfl
    · obtain ⟨c, hc, hcget⟩ := resumeFreed_eq Division.all s (s.withProt { s.prot with windLow := false })
      have lifted : windOk s = postFault (resumeFreed Division.all s (s.withProt { s.prot with windLow := false })) .windOk none none :=
        if_pos hw
      have later : Evolves (s.withProt { s.prot with windLow := false }) (windOk s) := by
        rw [lifted]
        exact (evolves_resumeFreed _ _ _).trans (evolves_postFault _ _ _ _)
      have hprot : (forwardUp (windOk s) bytes).prot = { s.prot with windLow := false } := by
        simpa using later.prot
      have hsched : (forwardUp (windOk s) bytes).sched = { s.sched with catchUp := c } := by
        rw [lifted, hc]
        simp [postFault]
      refine ⟨_, run, ⟨by rw [hprot], by rw [hprot], by simp, by simp, by simp, by simp, by simp, by simp, fun hformed => ?_,
        fun hroom => ?_⟩, by rw [hprot], fun d => ?_, ?_, by rw [hsched], fun d => ?_⟩
      · exact StopsFormed.forwarded (later.stops hformed) bytes
      · exact report_posted (c := .windOk) (d := none) (k := none) (u := resumeFreed Division.all s (s.withProt { s.prot with windLow := false })) hroom (by simp) (by simp)
          (.of_same (by simp)) (by rw [lifted]; simp [postFault]) (by rw [lifted]) (by rw [lifted]; exact .of_same rfl)
      · rw [overridden, latched, hprot, Bool.or_false]
      · rw [forwardUp_downQueue, lifted, postFault, postAlert_downQueue]
        simp
      · rw [hsched]
        have inForce : overridden s d = true := by simp [overridden, hw]
        have freed : overridden (s.withProt { s.prot with windLow := false }) d = (s.prot.faults.get d).isSome := by
          simp [overridden, latched]
        rw [hcget d, inForce, freed, Bool.true_and, Option.not_isSome]
        simp only [mem_divisionAll, true_and]
        rfl

end Machine

end Sys2Proof
end

section
/-! PROOF. A report that latches a division (O40). -/

namespace Sys2Proof

namespace Machine

set_option Elab.async false

/-! ### What a run of postings and marks leaves of the lines -/

/-- `t` has the alerts and replies of `v`, and its relay path but for the downstream queue. -/
def SameLines (v t : State) : Prop := t.handler = v.handler ∧ MarksOnly v t

theorem SameLines.trans {s t u : State} (h1 : SameLines s t) (h2 : SameLines t u) : SameLines s u :=
  ⟨h2.1.trans h1.1, h1.2.trans h2.2⟩

theorem SameLines.postAlert {v t : State} (h : SameLines v t) (a : Alert) : SameLines (postAlert v a) (postAlert t a) := by
  obtain ⟨hh, hr⟩ := h
  refine ⟨postAlert_handler_congr hh a, ?_⟩
  unfold MarksOnly Machine.postAlert
  rw [hh]
  split
  · exact hr
  · rw [loseAlert_relay, loseAlert_relay, hr]

theorem foldl_sameLines {v t : State} (h : SameLines v t) (as : List Alert) :
    SameLines (as.foldl Machine.postAlert v) (as.foldl Machine.postAlert t) := by
  induction as generalizing v t with
  | nil => exact h
  | cons a as ih => exact ih (h.postAlert a)

theorem foldl_postAlert_forward (as : List Alert) (s : State) : (as.foldl postAlert s).relay.forward = s.relay.forward := by
  induction as generalizing s with
  | nil => rfl
  | cons a as ih => rw [List.foldl_cons, ih, postAlert_forward]

/-- A stop of the clock touches the lines by its BEAT alert alone. -/
theorem sameLines_stopClock (s : State) (zero : Bool) : SameLines ((stopAlerts s).foldl postAlert s) (stopClock s zero) := by
  refine ⟨(stopClock_spec s zero).2, .of_same ?_⟩
  have post : ∀ (c : Clock) (a : Alert), (postAlert (s.withClock c) a).relay = (postAlert s a).relay := by
    intro c a
    by_cases h : s.handler.alerts.length < Config.alertMax <;> simp [postAlert, loseAlert, h]
  cases h : s.clock.state <;>
    simp [stopClock, riseAtStop, raiseHighest, stopCrossings, stopAlerts, beatReported, h] <;>
    split <;> simp_all

theorem sameLines_stopPlay (s : State) : SameLines ((stopAlerts s).foldl postAlert s) (stopPlay s) :=
  (sameLines_stopClock s true).trans ⟨by simp [stopPlay], marksOnly_stopPlay s⟩

/-! ### The division withdrawn -/

/-- The division a report latches, with its stops withdrawn, before any escalation. -/
def silencedBy (s : State) (d : Division) (r : FaultRec) : State := withdrawDivision (withFault s d (some r)) d (overridden s d)

theorem silencedBy_eq (s : State) (d : Division) (r : FaultRec) :
    silencedBy s d r = reformStops (if overridden s d then withFault s d (some r) else purge (withFault s d (some r)) d) := rfl

theorem silencedBy_prot (s : State) (d : Division) (r : FaultRec) :
    (silencedBy s d r).prot = { s.prot with faults := s.prot.faults.set d (some r) } := by
  simp [silencedBy, withFault]

theorem sameLines_silencedBy (s : State) (d : Division) (r : FaultRec) : SameLines s (silencedBy s d r) := by
  refine ⟨by simp [silencedBy], ?_⟩
  rw [silencedBy_eq]
  refine MarksOnly.trans (t := if overridden s d then withFault s d (some r) else purge (withFault s d (some r)) d) ?_
    (marksOnly_reformStops _)
  split
  · exact .of_same rfl
  · exact (MarksOnly.of_same (s := s) (t := withFault s d (some r)) rfl).trans (marksOnly_purge _ d)

theorem stopsFormed_silencedBy (s : State) (d : Division) (r : FaultRec) : StopsFormed (silencedBy s d r) :=
  stopsFormed_reformStops _

theorem stopMarked_silencedBy (s : State) (d : Division) (r : FaultRec) : StopMarked s (silencedBy s d r) := by
  rw [silencedBy_eq]
  refine StopMarked.trans (.of_same ?_) (stopMarked_reformStops _) fun x hx => mem_reformStops hx
  split
  · rfl
  · exact purge_stopImage _ d

theorem purged_silencedBy {s : State} {d : Division} (r : FaultRec) (h : overridden s d = false) : Purged s (silencedBy s d r) d := by
  rw [silencedBy_eq, if_neg (by simp [h])]
  refine ((purged_purge (withFault s d (some r)) d).of_same (s := s) rfl rfl rfl).later ?_ ?_ (.inr ?_) ?_ ?_ fun x hx => mem_reformStops hx <;>
    rw [reformStops_sched]

/-- A purge that comes after the withdrawal of `d` finds each division as it was, or purged. -/
theorem purged_after_silencedBy {s u : State} {d e : Division} {r : FaultRec} (h : Purged (silencedBy s d r) u e)
    (hm : ∀ x ∈ (silencedBy s d r).relay.downQueue, x ∈ u.relay.downQueue) : Purged s u e := by
  have hsched : (silencedBy s d r).sched.holds =
      (if overridden s d then withFault s d (some r) else purge (withFault s d (some r)) d).sched.holds ∧
      (silencedBy s d r).sched.keyUps =
        (if overridden s d then withFault s d (some r) else purge (withFault s d (some r)) d).sched.keyUps := by
    rw [silencedBy_eq, reformStops_sched]
    exact ⟨rfl, rfl⟩
  obtain ⟨hholds, hkeys⟩ := hsched
  have htime : (silencedBy s d r).partTime = s.partTime := by simp [silencedBy]
  by_cases ho : overridden s d = true
  · rw [if_pos ho] at hholds hkeys
    exact h.of_same (by rw [hholds]; rfl) (by rw [hkeys]; rfl) htime
  · by_cases he : e = d
    · subst he
      exact (purged_silencedBy r (Bool.eq_false_iff.mpr ho)).again h hm
    · rw [if_neg ho] at hholds hkeys
      obtain ⟨-, hh, hk, -⟩ := purge_other (withFault s d (some r)) he
      exact h.of_same (by rw [hholds, hh]; rfl) (by rw [hkeys, hk]; rfl) htime

/-! ### The escalation -/

/-- The flag of an escalation is set first. -/
def flagged (s : State) : State := s.withProt { s.prot with escalated := true }

theorem escalate_of_idle {s : State} (h : s.follower.play = .idle) : escalate s = clearRegistration (flagged s) := by
  have : stopIfPlaying (flagged s) = flagged s := if_pos h
  rw [← this]
  rfl

theorem escalate_of_playing {s : State} (h : s.follower.play ≠ .idle) : escalate s = clearRegistration (stopPlay (flagged s)) := by
  have : stopIfPlaying (flagged s) = stopPlay (flagged s) := if_neg h
  rw [← this]
  rfl

/-- The BEAT alert of the stop of play an escalation makes. -/
def risenBy (s : State) : List Alert := if s.follower.play = .idle then [] else stopAlerts s

theorem evolves_escalate (s : State) : Evolves (flagged s) (escalate s) :=
  (evolves_stopIfPlaying (flagged s)).trans (evolves_clearRegistration _)

theorem escalate_registration (s : State) : (escalate s).sched.active = none ∧ (escalate s).sched.stopImage = 0 ∧
    formedImage (escalate s) = 0 := by
  have active : (escalate s).sched.active = none := by
    unfold escalate
    rw [clearRegistration_sched]
  refine ⟨active, ?_, formedImage_none active⟩
  unfold escalate
  rw [clearRegistration_sched]

theorem sameLines_escalate (s : State) : SameLines ((risenBy s).foldl postAlert s) (escalate s) := by
  by_cases h : s.follower.play = .idle
  · rw [risenBy, if_pos h, escalate_of_idle h]
    exact SameLines.trans (t := flagged s) ⟨rfl, .of_same rfl⟩ ⟨by simp, marksOnly_clearRegistration _⟩
  · rw [risenBy, if_neg h, escalate_of_playing h]
    have posted : SameLines ((stopAlerts s).foldl postAlert s) ((stopAlerts (flagged s)).foldl postAlert (flagged s)) :=
      foldl_sameLines (v := s) (t := flagged s) ⟨rfl, .of_same rfl⟩ (stopAlerts s)
    exact posted.trans ((sameLines_stopPlay (flagged s)).trans ⟨by simp, marksOnly_clearRegistration _⟩)

theorem stopMarked_escalate (s : State) : StopMarked s (escalate s) := by
  have dropped : RegistrationDropped (flagged s) (escalate s) := registrationDropped_clear_stopIfPlaying (flagged s)
  obtain ⟨-, -, himage, hmark⟩ := dropped
  intro hne
  rw [himage] at hne
  exact hmark fun h0 => hne h0.symm

/-- An escalation during play stops it. -/
theorem escalate_stops {s : State} (h : s.follower.play ≠ .idle) : (escalate s).follower = resting s.follower ∧
    (escalate s).clock = stoppedClock s ∧ ∀ e, Purged s (escalate s) e := by
  rw [escalate_of_playing h]
  obtain ⟨hclock, -, hfollower⟩ := stopPlay_spec (flagged s)
  refine ⟨?_, ?_, fun e => ((purged_stopPlay (flagged s) e).of_same (s := s) rfl rfl rfl).cleared⟩
  · have : (clearRegistration (stopPlay (flagged s))).follower = (stopPlay (flagged s)).follower := by simp
    exact this.trans hfollower
  · have : (clearRegistration (stopPlay (flagged s))).clock = (stopPlay (flagged s)).clock := by simp
    exact this.trans hclock

theorem Purged.escalated {s t : State} {d : Division} (h : Purged s t d) : Purged s (escalate t) d := by
  by_cases hp : t.follower.play = .idle
  · rw [escalate_of_idle hp]
    exact Purged.cleared (t := flagged t) h
  · obtain ⟨-, -, hall⟩ := escalate_stops hp
    exact h.again (hall d) (evolves_escalate t).relay.mem

theorem escalate_current_of_idle {s : State} (h : s.follower.play = .idle → s.follower.current = none) :
    (escalate s).follower.current = none := by
  by_cases hp : s.follower.play = .idle
  · rw [escalate_of_idle hp, show (clearRegistration (flagged s)).follower = s.follower by simp [flagged]]
    exact h hp
  · rw [(escalate_stops hp).1]
    rfl

/-! ### The report -/

/-- The state in which a latching report is announced. -/
def latchedBy (s : State) (d : Division) (r : FaultRec) : State :=
  if otherLatched s d then escalate (silencedBy s d r) else silencedBy s d r

theorem latchFault_eq (s : State) (d : Division) (r : FaultRec) :
    latchFault s d r = waitingSwitches (postFault (latchedBy s d r) r.kind.cause (some d) r.key) := rfl

/-- A FAULT alert, and the switches it may let be made, after what `v` has posted. -/
theorem SameLines.faultPosted {v u : State} (h : SameLines v u) (c : FaultCause) (d : Option Division) (k : Option Key) :
    SameLines (Machine.postAlert v (.fault c d k (latchedSet u) (protectionByte u) u.partTime)) (waitingSwitches (postFault u c d k)) := by
  have lines : SameLines (postFault u c d k) (waitingSwitches (postFault u c d k)) := ⟨by simp, marksOnly_waitingSwitches _⟩
  exact (h.postAlert _).trans lines

/-- What the report leaves before its alert: the record, the lines, the stop image, and what is purged. -/
theorem latchedBy_spec {s : State} {d : Division} (r : FaultRec) :
    (latchedBy s d r).prot = { faults := s.prot.faults.set d (some r), windLow := s.prot.windLow
                               escalated := s.prot.escalated || otherLatched s d } ∧
      SameLines ((if otherLatched s d = true then risenBy s else []).foldl postAlert s) (latchedBy s d r) ∧
      StopsFormed (latchedBy s d r) ∧ StopMarked s (latchedBy s d r) ∧
      (latchedBy s d r).partTime = s.partTime ∧ (overridden s d = false → Purged s (latchedBy s d r) d) := by
  have lines := sameLines_silencedBy s d r
  have marked := stopMarked_silencedBy s d r
  have frame : (silencedBy s d r).follower = s.follower ∧ (silencedBy s d r).clock = s.clock ∧
      (silencedBy s d r).partTime = s.partTime := by simp [silencedBy]
  obtain ⟨hfollower, hclock, htime⟩ := frame
  cases ho : otherLatched s d with
  | false =>
    rw [latchedBy, ho]
    exact ⟨by rw [Bool.or_false]; exact silencedBy_prot s d r, lines, stopsFormed_silencedBy s d r, marked, htime,
      fun h => purged_silencedBy r h⟩
  | true =>
    rw [latchedBy, ho, if_pos rfl]
    obtain ⟨-, himage, hformed⟩ := escalate_registration (silencedBy s d r)
    have risen : risenBy (silencedBy s d r) = risenBy s := by
      unfold risenBy
      rw [hfollower, stopAlerts_congr hclock hfollower htime]
    have evolves := evolves_escalate (silencedBy s d r)
    refine ⟨?_, ?_, himage.trans hformed.symm, marked.trans (stopMarked_escalate _) evolves.relay.mem, evolves.partTime.trans htime,
      fun h => (purged_silencedBy r h).escalated⟩
    · rw [Bool.or_true, evolves.prot, flagged, State.withProt_prot, silencedBy_prot]
    · have := sameLines_escalate (silencedBy s d r)
      rw [risen] at this
      exact (foldl_sameLines lines (risenBy s)).trans this

/-- The row of a CIPHER or DRIVER report: the record it gives, and what it runs. -/
theorem exec_report {s : State} {bytes : List Byte} {f : Frame} {row : Instr} {report key : Byte} (ho : receivesDown s = true)
    (hf : readFrame bytes = some f) (hk : f.kind = 3) (hp : f.payload = [report, key])
    (hrow : (row = .cipher bytes ∧ report = 1) ∨ (row = .driver bytes ∧ report = 2)) :
    (4 ≤ f.addr → exec row s = .next (forwardUp s bytes)) ∧
      ∀ (d : Division) (r : FaultRec), f.addr = d.num → r.kind = (if report = 1 then .cipher else .driver) →
        r.key.map Fin.val = (if report = 1 ∧ key.toNat ≤ d.top then some key.toNat else none) →
          exec row s = .next (forwardUp (reportFault s d r) bytes) := by
  have passes : ∀ rec_ : Division → Nat → FaultRec, 4 ≤ f.addr → faultReport rec_ s f.addr key.toNat = s := fun rec_ h => by
    rw [faultReport, Division.ofNum?_none h]
  have reads : ∀ (rec_ : Division → Nat → FaultRec) (d : Division), f.addr = d.num →
      faultReport rec_ s f.addr key.toNat = reportFault s d (rec_ d key.toNat) := fun rec_ d h => by
    rw [faultReport, Division.ofNum?_iff.mpr h]
  rcases hrow with ⟨rfl, rfl⟩ | ⟨rfl, rfl⟩
  · have run := exec_chest (s := s) (row := .cipher bytes) (act := faultReport cipherRec) rfl ho hf hk hp
    refine ⟨fun h => by rw [run, passes _ h], fun d r hd hkind hkey => ?_⟩
    rw [run, reads _ d hd]
    have same : cipherRec d key.toNat = r := by
      rw [if_pos rfl] at hkind
      obtain ⟨kind, k⟩ := r
      have same : key? d key.toNat = k := by
        by_cases htop : key.toNat ≤ d.top
        · rw [if_pos ⟨rfl, htop⟩, Option.map_eq_some_iff] at hkey
          obtain ⟨x, hx, hval⟩ := hkey
          exact (key?_eq_some.mpr ⟨hval, htop⟩).trans hx.symm
        · rw [if_neg (fun h => htop h.2), Option.map_eq_none_iff] at hkey
          rw [show k = none from hkey, Option.eq_none_iff_forall_ne_some]
          exact fun x hx => htop (key?_eq_some.mp hx).2
      rw [cipherRec, same, ← hkind]
    rw [same]
  · have run := exec_chest (s := s) (row := .driver bytes) (act := faultReport fun _ _ => driverRec) rfl ho hf hk hp
    refine ⟨fun h => by rw [run, passes _ h], fun d r hd hkind hkey => ?_⟩
    rw [run, reads _ d hd]
    have same : driverRec = r := by
      rw [if_neg (by decide)] at hkind
      rw [if_neg (fun h => absurd h.1 (by decide)), Option.map_eq_none_iff] at hkey
      cases r
      cases hkind
      cases hkey
      rfl
    rw [same]

/-- Settles O40: the record is set first, the division purged and its stops withdrawn, and play stopped if another division is latched. -/
theorem chestFaultsLatchAndEscalate : Obligations.ChestFaultsLatchAndEscalate := by
  unfold Obligations.ChestFaultsLatchAndEscalate
  intro s bytes f row report key hr hb hd hf hk hp hrow forward
  obtain ⟨passes, reports⟩ := exec_report (receivesDown_of_open hr hb hd) hf hk hp hrow
  refine ⟨fun h4 => by rw [passes h4, forwardUp_eq]; rfl, ?_⟩
  intro d r hnum hkind hkey alert
  have run := reports d r hnum hkind hkey
  refine ⟨fun hold => ?_, ?_, ?_⟩
  · have : reportFault s d r = s := by
      rw [reportFault, hold]
      exact if_pos rfl
    rw [run, this, forwardUp_eq]
    rfl
  · intro old hold hne hroom u
    have : reportFault s d r = postFault u r.kind.cause (some d) r.key := by
      rw [reportFault, hold]
      exact if_neg hne
    rw [run, this, forwardUp_eq, postFault, postAlert_of_room (s := u) hroom]
    rfl
  · intro hclear hidle second
    have latch : reportFault s d r = latchFault s d r := by rw [reportFault, hclear]
    have hsecond : otherLatched s d = second := rfl
    obtain ⟨hprot, lines, formed, marked, htime, purged⟩ := latchedBy_spec (s := s) (d := d) r
    have later : Evolves (latchedBy s d r) (latchFault s d r) := by
      rw [latchFault_eq]
      exact (evolves_postFault _ _ _ _).trans (evolves_waitingSwitches _)
    have actions : SameActions (latchedBy s d r) (latchFault s d r) := by
      rw [latchFault_eq]
      have posted : SameActions (latchedBy s d r) (postFault (latchedBy s d r) r.kind.cause (some d) r.key) := by
        simp [SameActions, postFault]
      exact posted.trans (waitingSwitches_actions _)
    have tprot : (forwardUp (latchFault s d r) bytes).prot = (latchedBy s d r).prot := by simpa using later.prot
    have follower : (forwardUp (latchFault s d r) bytes).follower = (latchedBy s d r).follower := by
      simp [latchFault_eq, postFault]
    have clock : (forwardUp (latchFault s d r) bytes).clock = (latchedBy s d r).clock := by
      simp [latchFault_eq, postFault]
    have sched : (forwardUp (latchFault s d r) bytes).sched = (latchFault s d r).sched := by simp
    have noEntry : second = true → latchFault s d r = postFault (latchedBy s d r) r.kind.cause (some d) r.key := fun h2 => by
      rw [latchFault_eq, waitingSwitches_of_no_entry]
      have kept : (postFault (latchedBy s d r) r.kind.cause (some d) r.key).follower = (escalate (silencedBy s d r)).follower := by
        rw [latchedBy, hsecond, if_pos h2]
        simp [postFault]
      rw [kept]
      exact escalate_current_of_idle fun hi => by simpa [silencedBy] using hidle (by simpa [silencedBy] using hi)
    have posted : SameLines (((if second = true ∧ s.follower.play ≠ .idle then stopAlerts s else []) ++
        [alert (forwardUp (latchFault s d r) bytes)]).foldl postAlert s) (latchFault s d r) := by
      have risen : (if second = true ∧ s.follower.play ≠ .idle then stopAlerts s else []) =
          if otherLatched s d = true then risenBy s else [] := by
        rw [hsecond, risenBy]
        by_cases h2 : second = true <;> by_cases hi : s.follower.play = .idle <;> simp [h2, hi]
      have told : alert (forwardUp (latchFault s d r) bytes) = .fault r.kind.cause (some d) r.key (latchedSet (latchedBy s d r))
          (protectionByte (latchedBy s d r)) (latchedBy s d r).partTime := by
        simp only [alert, latchedSet_of_prot tprot, protectionByte_of_prot tprot, htime]
      rw [risen, List.foldl_append, told, latchFault_eq]
      exact lines.faultPosted _ _ _
    refine ⟨forwardUp (latchFault s d r) bytes, by rw [run, latch], tprot.trans hprot, by simp, by simp, by simp, by simp, fun hw => ?_,
      (later.stops formed).forwarded bytes, ?_, ?_, fun h2 => ?_, fun h2 => ?_, fun h2 hplay => ?_⟩
    · have free : overridden s d = false := by simp [overridden, latched, hclear, hw]
      exact ((purged free).switched actions later.relay.mem).forwarded bytes
    · have switched : StopMarked (latchedBy s d r) (latchFault s d r) := by
        rw [latchFault_eq]
        exact StopMarked.trans (t := postFault (latchedBy s d r) r.kind.cause (some d) r.key) (.of_same (by simp [postFault]))
          (stopMarked_waitingSwitches _) (evolves_waitingSwitches _).relay.mem
      have all := marked.trans switched later.relay.mem
      rw [sched, forwardUp_downQueue]
      exact all
    · intro risen u
      obtain ⟨hhandler, hrelay⟩ := posted
      refine ⟨?_, ?_⟩
      · have : (forwardUp (latchFault s d r) bytes).handler = (latchFault s d r).handler := by simp
        exact this.trans hhandler
      · have hforward : forwarded (latchFault s d r) bytes = forwarded s bytes := by
          unfold forwarded
          rw [hrelay, foldl_postAlert_forward]
        rw [forwardUp_eq, hforward]
        exact congrArg (fun q : Relay => { q with forward := forwarded s bytes }) hrelay
    · rw [follower, clock, latchedBy, hsecond, h2]
      simp [silencedBy]
    · have reg := escalate_registration (silencedBy s d r)
      rw [sched, noEntry h2]
      have : (postFault (latchedBy s d r) r.kind.cause (some d) r.key).sched = (escalate (silencedBy s d r)).sched := by
        rw [latchedBy, hsecond, if_pos h2]
        simp [postFault]
      rw [this]
      exact ⟨reg.1, reg.2.1⟩
    · have still : (silencedBy s d r).follower.play ≠ .idle := by simpa [silencedBy] using hplay
      obtain ⟨hf, hc, hall⟩ := escalate_stops still
      have hby : latchedBy s d r = escalate (silencedBy s d r) := by rw [latchedBy, hsecond, if_pos h2]
      rw [follower, clock, hby, hf, hc]
      refine ⟨by simp [silencedBy], by simp [silencedBy, stoppedClock, position], fun e => ?_⟩
      have silenced : Purged s (escalate (silencedBy s d r)) e := purged_after_silencedBy (hall e) (evolves_escalate _).relay.mem
      have all : Purged s (latchFault s d r) e := silenced.switched (hby ▸ actions) (hby ▸ later.relay.mem)
      exact all.forwarded bytes

end Machine

end Sys2Proof
end

section
/-! PROOF. A level frame in the detector (O42): what enters the histories, what fires, and how the cutoff state moves. -/

namespace Sys2Proof

namespace Machine

set_option Elab.async false

/-! ### The largest of a list -/

theorem foldl_max_spec (a : Nat) (l : List Nat) :
    a ≤ l.foldl max a ∧ (∀ x ∈ l, x ≤ l.foldl max a) ∧ (l.foldl max a = a ∨ l.foldl max a ∈ l) := by
  induction l generalizing a with
  | nil => exact ⟨le_refl a, nofun, .inl rfl⟩
  | cons b l ih =>
    obtain ⟨h1, h2, h3⟩ := ih (max a b)
    rw [List.foldl_cons]
    refine ⟨(le_max_left a b).trans h1, List.forall_mem_cons.mpr ⟨(le_max_right a b).trans h1, h2⟩, ?_⟩
    rcases h3 with h3 | h3
    · rcases max_choice a b with hm | hm
      · exact .inl (h3.trans hm)
      · exact .inr (by rw [h3, hm]; exact List.mem_cons_self)
    · exact .inr (List.mem_cons_of_mem _ h3)

theorem le_largest {l : List Nat} {x : Nat} (h : x ∈ l) : x ≤ largest l := (foldl_max_spec 0 l).2.1 x h

theorem largest_mem (l : List Nat) : largest l = 0 ∨ largest l ∈ l := (foldl_max_spec 0 l).2.2

theorem largest_mem_of_ne_nil {l : List Nat} (h : l ≠ []) : largest l ∈ l := by
  rcases largest_mem l with h0 | hm
  · obtain ⟨x, hx⟩ := List.exists_mem_of_ne_nil l h
    obtain rfl : x = 0 := Nat.le_zero.mp (h0 ▸ le_largest hx)
    rwa [h0]
  · exact hm

/-- A positive level is reached by the largest of a list exactly when a member reaches it. -/
theorem le_largest_iff {l : List Nat} {n : Nat} (hn : 0 < n) : n ≤ largest l ↔ ∃ x ∈ l, n ≤ x := by
  constructor
  · intro h
    rcases largest_mem l with h0 | hm
    · exact absurd (h0 ▸ h) (Nat.not_le.mpr hn)
    · exact ⟨_, hm, h⟩
  · rintro ⟨x, hx, h⟩
    exact h.trans (le_largest hx)

/-! ### What a frame does, in the terms of the statement -/

/-- The state of channel `c` once a refractory time that is over has ended (R87). -/
def endedState (s : State) (c : Fin 4) : ChanState :=
  match (channel s c).state with
  | .refractory e => if 0 ≤ tdiff s.partTime e then .armed else .refractory e
  | .armed => .armed

/-- The rise of a history over the rise span (R83). -/
def risesOver (s : State) (h : List Nat) : Int := (h.getD 0 0 : Int) - (h.getD s.tables.pickup.span 0 : Int)

/-- Channel `c` fires under mask `m` on a frame of these levels, with these histories (R87, R88). -/
def FiresOn (s : State) (levels : List Nat) (hist : Fin 4 → List Nat) (m : BitVec 4) (c : Fin 4) : Prop :=
  (available s).getLsbD c.val = true ∧ m.getLsbD c.val = true ∧ endedState s c = .armed ∧
    (effectiveThreshold s : Int) ≤ risesOver s (hist c) ∧ s.tables.pickup.gate ≤ levels.getD c.val 0

/-- The channels as the test of a frame leaves them (R87). -/
def TestedOn (s : State) (levels : List Nat) (hist : Fin 4 → List Nat) (m : BitVec 4) (t : State) : Prop :=
  ∀ c : Fin 4, (available s).getLsbD c.val = true →
    (FiresOn s levels hist m c → (channel t c).state = .refractory (after s.partTime (s.tables.pickup.refractory : Int))) ∧
    (¬FiresOn s levels hist m c → (channel t c).state = endedState s c)

/-- The gather a frame opens, with none open (R90). -/
def OpensOn (s : State) (levels : List Nat) (hist : Fin 4 → List Nat) (m : BitVec 4) (t : State) : Prop :=
  ((∀ c, ¬FiresOn s levels hist m c) → t.detector.gather = none) ∧
    ∀ c0, FiresOn s levels hist m c0 → ∃ g, t.detector.gather = some g ∧ g.opened = s.partTime ∧ g.mask = m ∧
      g.time = after s.partTime (-(s.tables.pickup.latency : Int)) ∧
      (∀ c : Fin 4, g.channels.getLsbD c.val = true ↔ FiresOn s levels hist m c) ∧
      (risesOver s (hist c0)).toNat ≤ g.strength ∧ ∃ c, FiresOn s levels hist m c ∧ (risesOver s (hist c)).toNat = g.strength

/-- Some channel of mask `m` reaches the cutoff level (R94). -/
def LoudOn (s : State) (levels : List Nat) (m : BitVec 4) : Prop :=
  ∃ c : Fin 4, (available s).getLsbD c.val = true ∧ m.getLsbD c.val = true ∧ s.tables.pickup.cutoffLevel ≤ levels.getD c.val 0

/-- No cutoff completes now (R94). -/
def NoCutoffDue (s : State) : Prop :=
  ∀ b, s.detector.cutoff = .falling b → tdiff s.partTime b < (s.tables.pickup.cutoffHold : Int)

/-- The cutoff state by its table (R94). -/
def CutoffMoved (s : State) (levels : List Nat) (m : BitVec 4) (t : State) : Prop :=
  (LoudOn s levels m → t.detector.cutoff = .sounding) ∧
    (¬LoudOn s levels m → 0 < s.tables.pickup.cutoffLevel → t.detector.cutoff = match s.detector.cutoff with
      | .quiet => .quiet
      | .sounding => .falling s.partTime
      | .falling b => if (s.tables.pickup.cutoffHold : Int) ≤ tdiff s.partTime b then .quiet else .falling b)

/-- What the rest of the part takes from a frame after `v`: nothing, or the cutoff that completes (R95). -/
def CutoffDelivered (s : State) (levels : List Nat) (v : State) (m : BitVec 4) (t : State) : Prop :=
  (NoCutoffDue s ∨ LoudOn s levels m → t = v.withDetector t.detector) ∧
    ∀ b, s.detector.cutoff = .falling b → (s.tables.pickup.cutoffHold : Int) ≤ tdiff s.partTime b → ¬LoudOn s levels m →
      0 < s.tables.pickup.cutoffLevel → ∃ w, w = v.withDetector w.detector ∧ w.detector.cutoff = .quiet ∧
        t = deliverCutoff w { completed := s.partTime, belowSince := b }

/-- A frame of these levels has entered the histories between `s` and `x`; the channels' states, the boost, the cutoff state, the time
and the tables stand. -/
structure FrameEntered (s x : State) (levels : List Nat) (hist : Fin 4 → List Nat) : Prop where
  time : x.partTime = s.partTime
  tables : x.tables = s.tables
  count : x.detector.fourChannels = s.detector.fourChannels
  boost : x.detector.boostUntil = s.detector.boostUntil
  cutoff : x.detector.cutoff = s.detector.cutoff
  entered : ∀ c : Fin 4, (available s).getLsbD c.val = true → channel x c = { history := hist c, state := (channel s c).state }
  newest : ∀ c : Fin 4, (available s).getLsbD c.val = true → (hist c).getD 0 0 = levels.getD c.val 0

/-! ### Steps 4 to 6 (R86) -/

/-- Step 4: the refractory times that are over end. -/
def refractoryEnded (x : State) : State := mapChannels x fun _ ch => endRefractory x.partTime ch

/-- Steps 4 to 6. -/
def testFrame (x : State) : State := updateCutoff (testFiring (refractoryEnded x))

theorem handleFrame_eq (s : State) : handleFrame s = testFrame (closeGather s) := rfl

theorem available_congr {s t : State} (h : t.detector.fourChannels = s.detector.fourChannels) : available t = available s := by
  rw [available, h, available]

theorem applicableMask_congr {s t : State} (hf : t.follower = s.follower) (ht : t.tables = s.tables)
    (hc : t.detector.fourChannels = s.detector.fourChannels) : applicableMask t = applicableMask s := by
  unfold applicableMask planEntry
  rw [hf, ht, available_congr hc]

theorem channel_mapped (s : State) (f : Fin 4 → Channel → Channel) (c : Fin 4) : channel (mapChannels s f) c =
    if (available s).getLsbD c.val = true then f c (channel s c) else channel s c := channel_mapChannels s f c

theorem endRefractory_eq (now : PartTime) (ch : Channel) : endRefractory now ch = { ch with
    state := match ch.state with
      | .refractory e => if 0 ≤ tdiff now e then .armed else .refractory e
      | .armed => .armed } := by
  obtain ⟨history, state⟩ := ch
  cases state with
  | armed => rfl
  | refractory e => by_cases h : 0 ≤ tdiff now e <;> simp [endRefractory, due, h]

section

variable {s x : State} {levels : List Nat} {hist : Fin 4 → List Nat}

theorem FrameEntered.available (h : FrameEntered s x levels hist) : available x = Machine.available s := available_congr h.count

theorem FrameEntered.ended (h : FrameEntered s x levels hist) {c : Fin 4} (hc : (Machine.available s).getLsbD c.val = true) :
    channel (refractoryEnded x) c = { history := hist c, state := endedState s c } := by
  rw [refractoryEnded, channel_mapped, h.available, if_pos hc, h.entered c hc, endRefractory_eq, h.time]
  rfl

theorem FrameEntered.threshold (h : FrameEntered s x levels hist) : effectiveThreshold (refractoryEnded x) = effectiveThreshold s := by
  have boost : (refractoryEnded x).detector.boostUntil = s.detector.boostUntil := h.boost
  have time : (refractoryEnded x).partTime = s.partTime := h.time
  have tables : (refractoryEnded x).tables = s.tables := h.tables
  unfold effectiveThreshold
  rw [boost, time, tables]

/-- An available channel fires in the model as the statement says. -/
theorem FrameEntered.fires_iff (h : FrameEntered s x levels hist) (c : Fin 4) :
    c ∈ (availableChannels (refractoryEnded x)).filter (fires (refractoryEnded x)) ↔ FiresOn s levels hist (firingMask x) c := by
  have count : Machine.available (refractoryEnded x) = Machine.available s := h.available
  rw [List.mem_filter, mem_availableChannels, count]
  refine and_congr_right fun hc => ?_
  have mask : firingMask (refractoryEnded x) = firingMask x := rfl
  have tables : (refractoryEnded x).tables = s.tables := h.tables
  have newest := h.newest c hc
  simp only [fires, h.ended hc, h.threshold, mask, rise, tables, Bool.and_eq_true, decide_eq_true_eq, risesOver]
  rw [newest]
  tauto

/-- Step 5: the channels that fire become REFRACTORY and gather; nothing else changes. -/
theorem testFiring_spec (y : State) {cs : List (Fin 4)} (hcs : (availableChannels y).filter (fires y) = cs) :
    testFiring y = y.withDetector { y.detector with
        channels := (testFiring y).detector.channels, gather := if cs = [] then y.detector.gather else some (gatherWith y cs) } ∧
      ∀ c, channel (testFiring y) c = if c ∈ cs
        then { channel y c with state := .refractory (after y.partTime (y.tables.pickup.refractory : Int)) } else channel y c := by
  cases cs with
  | nil =>
    have same : testFiring y = y := by rw [testFiring, hcs]
    rw [same]
    exact ⟨by rw [if_pos rfl]; rfl, fun c => (if_neg List.not_mem_nil).symm⟩
  | cons a as =>
    have fired : testFiring y = mapChannels (y.withDetector { y.detector with gather := some (gatherWith y (a :: as)) }) fun c ch =>
        if (a :: as).contains c then { ch with state := .refractory (after y.partTime (y.tables.pickup.refractory : Int)) } else ch := by
      rw [testFiring, hcs]
    refine ⟨by rw [fired, if_neg (List.cons_ne_nil a as)]; rfl, fun c => ?_⟩
    rw [fired, channel_mapped]
    have count : Machine.available (y.withDetector { y.detector with gather := some (gatherWith y (a :: as)) }) = Machine.available y := rfl
    have same : channel (y.withDetector { y.detector with gather := some (gatherWith y (a :: as)) }) c = channel y c := rfl
    rw [count, same]
    by_cases hm : c ∈ a :: as
    · have hc : (Machine.available y).getLsbD c.val = true := by
        rw [← hcs, List.mem_filter, mem_availableChannels] at hm
        exact hm.1
      rw [if_pos hc, if_pos (List.contains_iff_mem.mpr hm), if_pos hm]
    · rw [if_neg (fun h => hm (List.contains_iff_mem.mp h)), if_neg hm, ite_self]

/-- Every available channel is tested under the mask in force. -/
theorem FrameEntered.tested (h : FrameEntered s x levels hist) : TestedOn s levels hist (firingMask x) (testFiring (refractoryEnded x)) ∧
    (∀ c : Fin 4, (Machine.available s).getLsbD c.val = true → (channel (testFiring (refractoryEnded x)) c).history = hist c) ∧
      ∀ c : Fin 4, (Machine.available s).getLsbD c.val = false → channel (testFiring (refractoryEnded x)) c = channel x c := by
  obtain ⟨-, hchan⟩ := testFiring_spec (refractoryEnded x) rfl
  refine ⟨fun c hc => ⟨fun hf => ?_, fun hf => ?_⟩, fun c hc => ?_, fun c hc => ?_⟩
  · rw [hchan, if_pos ((h.fires_iff c).mpr hf), show (refractoryEnded x).partTime = s.partTime from h.time, show (refractoryEnded x).tables = s.tables from h.tables]
  · rw [hchan, if_neg (mt (h.fires_iff c).mp hf), h.ended hc]
  · rw [hchan, h.ended hc]
    split <;> rfl
  · rw [hchan, if_neg (fun hf => by rw [((h.fires_iff c).mp hf).1] at hc; cases hc), refractoryEnded, channel_mapped, h.available, if_neg (by rw [hc]; decide)]

/-- The largest rise among the channels that fire (R90). -/
theorem firingStrength_spec (h : FrameEntered s x levels hist) {cs : List (Fin 4)}
    (hcs : (availableChannels (refractoryEnded x)).filter (fires (refractoryEnded x)) = cs) :
    (∀ c ∈ cs, (risesOver s (hist c)).toNat ≤ firingStrength (refractoryEnded x) cs) ∧
      (cs ≠ [] → ∃ c ∈ cs, (risesOver s (hist c)).toNat = firingStrength (refractoryEnded x) cs) := by
  have hrise : ∀ c ∈ cs, rise (refractoryEnded x) (channel (refractoryEnded x) c) = risesOver s (hist c) := fun c hc => by
    rw [← hcs, h.fires_iff] at hc
    rw [h.ended hc.1, rise, show (refractoryEnded x).tables = s.tables from h.tables, risesOver]
  have same : (cs.map fun c => (rise (refractoryEnded x) (channel (refractoryEnded x) c)).toNat) =
      cs.map fun c => (risesOver s (hist c)).toNat := List.map_congr_left fun c hc => by rw [hrise c hc]
  rw [firingStrength, same]
  refine ⟨fun c hc => le_largest (List.mem_map_of_mem hc), fun hne => ?_⟩
  obtain ⟨c, hc, heq⟩ := List.mem_map.mp (largest_mem_of_ne_nil (mt List.map_eq_nil_iff.mp hne))
  exact ⟨c, hc, heq⟩

theorem mem_firingSet {cs : List (Fin 4)} (c : Fin 4) : (bitsOf 4 (cs.map Fin.val)).getLsbD c.val = true ↔ c ∈ cs := by
  rw [bitsOf_getLsbD _ c.isLt, List.contains_iff_mem, List.mem_map]
  exact ⟨fun ⟨a, ha, he⟩ => Fin.ext he ▸ ha, fun hc => ⟨c, hc, rfl⟩⟩

theorem gatherWith_of_none {y : State} (hg : y.detector.gather = none) (cs : List (Fin 4)) : gatherWith y cs =
    { opened := y.partTime, mask := applicableMask y, channels := bitsOf 4 (cs.map Fin.val), time := channelOnset y
      strength := firingStrength y cs } := by
  rw [gatherWith, hg]

theorem gatherWith_of_some {y : State} {g : Gather} (hg : y.detector.gather = some g) (cs : List (Fin 4)) : gatherWith y cs = { g with
    channels := g.channels ||| bitsOf 4 (cs.map Fin.val)
    time := if tdiff (channelOnset y) g.time < 0 then channelOnset y else g.time
    strength := max g.strength (firingStrength y cs) } := by
  rw [gatherWith, hg]

theorem FrameEntered.onsetTime (h : FrameEntered s x levels hist) :
    channelOnset (refractoryEnded x) = after s.partTime (-(s.tables.pickup.latency : Int)) := by
  rw [channelOnset, show (refractoryEnded x).partTime = s.partTime from h.time, show (refractoryEnded x).tables = s.tables from h.tables]

/-- With no gather open a frame opens one exactly when a channel fires. -/
theorem FrameEntered.opens (h : FrameEntered s x levels hist) (hg : x.detector.gather = none) :
    OpensOn s levels hist (applicableMask x) (testFiring (refractoryEnded x)) := by
  have hmask : firingMask x = applicableMask x := by rw [firingMask, hg]
  generalize hcs : (availableChannels (refractoryEnded x)).filter (fires (refractoryEnded x)) = cs
  obtain ⟨hdet, -⟩ := testFiring_spec (refractoryEnded x) hcs
  have hgather : (testFiring (refractoryEnded x)).detector.gather =
      if cs = [] then (refractoryEnded x).detector.gather else some (gatherWith (refractoryEnded x) cs) := by
    rw [hdet]
    rfl
  have mem : ∀ c, c ∈ cs ↔ FiresOn s levels hist (applicableMask x) c := fun c => by rw [← hcs, h.fires_iff, hmask]
  obtain ⟨hle, hmax⟩ := firingStrength_spec h hcs
  refine ⟨fun hno => ?_, fun c0 h0 => ?_⟩
  · have hnil : cs = [] := List.eq_nil_iff_forall_not_mem.mpr fun c hc => hno c ((mem c).mp hc)
    rw [hgather, if_pos hnil]
    exact hg
  · have hne : cs ≠ [] := List.ne_nil_of_mem ((mem c0).mpr h0)
    obtain ⟨c, hc, heq⟩ := hmax hne
    refine ⟨gatherWith (refractoryEnded x) cs, by rw [hgather, if_neg hne], ?_⟩
    rw [gatherWith_of_none (y := refractoryEnded x) hg]
    exact ⟨h.time, rfl, h.onsetTime, fun c => (mem_firingSet c).trans (mem c), hle c0 ((mem c0).mpr h0), c, (mem c).mp hc, heq⟩

/-- An open gather is joined by the channels of its own mask that fire (R90, R92). -/
theorem FrameEntered.joins (h : FrameEntered s x levels hist) {g : Gather} (hg : x.detector.gather = some g) :
    ((∀ c, ¬FiresOn s levels hist g.mask c) → (testFiring (refractoryEnded x)).detector.gather = some g) ∧
      ((∃ c, FiresOn s levels hist g.mask c) → ∃ k, (testFiring (refractoryEnded x)).detector.gather = some k ∧
        k.opened = g.opened ∧ k.mask = g.mask ∧
        k.time = (if tdiff (after s.partTime (-(s.tables.pickup.latency : Int))) g.time < 0
          then after s.partTime (-(s.tables.pickup.latency : Int)) else g.time) ∧
        (∀ c : Fin 4, k.channels.getLsbD c.val = true ↔ g.channels.getLsbD c.val = true ∨ FiresOn s levels hist g.mask c) ∧
        g.strength ≤ k.strength ∧ (∀ c, FiresOn s levels hist g.mask c → (risesOver s (hist c)).toNat ≤ k.strength) ∧
        (k.strength = g.strength ∨ ∃ c, FiresOn s levels hist g.mask c ∧ (risesOver s (hist c)).toNat = k.strength)) := by
  have hmask : firingMask x = g.mask := by rw [firingMask, hg]
  generalize hcs : (availableChannels (refractoryEnded x)).filter (fires (refractoryEnded x)) = cs
  obtain ⟨hdet, -⟩ := testFiring_spec (refractoryEnded x) hcs
  have hgather : (testFiring (refractoryEnded x)).detector.gather =
      if cs = [] then (refractoryEnded x).detector.gather else some (gatherWith (refractoryEnded x) cs) := by
    rw [hdet]
    rfl
  have mem : ∀ c, c ∈ cs ↔ FiresOn s levels hist g.mask c := fun c => by rw [← hcs, h.fires_iff, hmask]
  obtain ⟨hle, hmax⟩ := firingStrength_spec h hcs
  refine ⟨fun hno => ?_, fun ⟨c0, h0⟩ => ?_⟩
  · have hnil : cs = [] := List.eq_nil_iff_forall_not_mem.mpr fun c hc => hno c ((mem c).mp hc)
    rw [hgather, if_pos hnil]
    exact hg
  · have hne : cs ≠ [] := List.ne_nil_of_mem ((mem c0).mpr h0)
    obtain ⟨c, hc, heq⟩ := hmax hne
    refine ⟨gatherWith (refractoryEnded x) cs, by rw [hgather, if_neg hne], ?_⟩
    rw [gatherWith_of_some (y := refractoryEnded x) hg, h.onsetTime]
    refine ⟨rfl, rfl, rfl, fun c => ?_, le_max_left _ _, fun c hf => (hle c ((mem c).mpr hf)).trans (le_max_right _ _), ?_⟩
    · rw [BitVec.getLsbD_or, Bool.or_eq_true, mem_firingSet, mem]
    · rcases max_choice g.strength (firingStrength (refractoryEnded x) cs) with hm | hm
      · exact .inl hm
      · exact .inr ⟨c, (mem c).mp hc, heq.trans hm.symm⟩

/-! ### Step 6 (R94) -/

/-- Once the histories are entered, the loudest level is that of the frame. -/
theorem loudest_iff {z : State} (hcount : Machine.available z = Machine.available s)
    (hhist : ∀ c : Fin 4, (Machine.available s).getLsbD c.val = true → (channel z c).history.getD 0 0 = levels.getD c.val 0)
    (hl : 0 < s.tables.pickup.cutoffLevel) :
    s.tables.pickup.cutoffLevel ≤ loudest z ↔ LoudOn s levels (applicableMask z) := by
  rw [loudest, le_largest_iff hl]
  simp only [List.mem_map, List.mem_filter, mem_availableChannels, hcount]
  constructor
  · rintro ⟨n, ⟨c, ⟨hc, hm⟩, rfl⟩, hn⟩
    exact ⟨c, hc, hm, hhist c hc ▸ hn⟩
  · rintro ⟨c, hc, hm, hn⟩
    exact ⟨_, ⟨c, ⟨hc, hm⟩, rfl⟩, (hhist c hc).symm ▸ hn⟩

theorem withCutoff_eq (z : State) (c : CutoffState) : withCutoff z c = z.withDetector { z.detector with cutoff := c } := rfl

/-- The cutoff state, and what is delivered, by the table of R94. -/
theorem updateCutoff_spec {z : State} (htime : z.partTime = s.partTime) (hcount : Machine.available z = Machine.available s)
    (htables : z.tables = s.tables) (hcutoff : z.detector.cutoff = s.detector.cutoff)
    (hhist : ∀ c : Fin 4, (Machine.available s).getLsbD c.val = true → (channel z c).history.getD 0 0 = levels.getD c.val 0) :
    (updateCutoff z).detector = { z.detector with cutoff := (updateCutoff z).detector.cutoff } ∧
      CutoffMoved s levels (applicableMask z) (updateCutoff z) ∧ CutoffDelivered s levels z (applicableMask z) (updateCutoff z) := by
  have hle : s.tables.pickup.cutoffLevel ≤ loudest z ↔ s.tables.pickup.cutoffLevel = 0 ∨ LoudOn s levels (applicableMask z) := by
    rcases Nat.eq_zero_or_pos s.tables.pickup.cutoffLevel with h0 | hpos
    · simp [h0]
    · rw [loudest_iff hcount hhist hpos]
      simp [hpos.ne']
  by_cases hloud : s.tables.pickup.cutoffLevel ≤ loudest z
  · have ends : updateCutoff z = withCutoff z .sounding := by rw [updateCutoff, htables, if_pos hloud]
    rw [ends]
    refine ⟨rfl, ⟨fun _ => rfl, fun hno hpos => ?_⟩, fun _ => rfl, fun b hb hold hno hpos => ?_⟩
    · exact absurd (hle.mp hloud) (not_or.mpr ⟨hpos.ne', hno⟩)
    · exact absurd (hle.mp hloud) (not_or.mpr ⟨hpos.ne', hno⟩)
  · obtain ⟨-, hno⟩ := not_or.mp (mt hle.mpr hloud)
    cases hc : s.detector.cutoff with
    | quiet =>
      have hz : z.detector.cutoff = .quiet := hcutoff.trans hc
      have ends : updateCutoff z = z := by rw [updateCutoff, htables, if_neg hloud, hz]
      rw [ends]
      exact ⟨rfl, ⟨fun h => absurd h hno, fun _ _ => by rw [hz, hc]⟩, fun _ => rfl, fun b hb => by rw [hc] at hb; cases hb⟩
    | sounding =>
      have hz : z.detector.cutoff = .sounding := hcutoff.trans hc
      have ends : updateCutoff z = withCutoff z (.falling s.partTime) := by rw [updateCutoff, htables, if_neg hloud, hz, htime]
      rw [ends]
      exact ⟨rfl, ⟨fun h => absurd h hno, fun _ _ => by rw [hc]; rfl⟩, fun _ => rfl, fun b hb => by rw [hc] at hb; cases hb⟩
    | falling t =>
      have hz : z.detector.cutoff = .falling t := hcutoff.trans hc
      have since : ∀ b, s.detector.cutoff = .falling b → b = t := fun b hb => by
        rw [hc] at hb
        exact (CutoffState.falling.inj hb).symm
      by_cases hold : (s.tables.pickup.cutoffHold : Int) ≤ tdiff s.partTime t
      · have ends : updateCutoff z = deliverCutoff (withCutoff z .quiet) { completed := s.partTime, belowSince := t } := by
          rw [updateCutoff, htables, if_neg hloud, hz, htime]
          exact if_pos hold
        have quiet : (deliverCutoff (withCutoff z .quiet) { completed := s.partTime, belowSince := t }).detector =
            { z.detector with cutoff := .quiet } := by simp [withCutoff_eq]
        rw [ends]
        refine ⟨by rw [quiet], ⟨fun h => absurd h hno, fun _ _ => by rw [quiet, hc]; exact (if_pos hold).symm⟩, fun h => ?_,
          fun b hb _ _ _ => ⟨withCutoff z .quiet, rfl, rfl, by rw [since b hb]⟩⟩
        rcases h with h | h
        · exact absurd hold (not_le.mpr (h t hc))
        · exact absurd h hno
      · have ends : updateCutoff z = z := by
          rw [updateCutoff, htables, if_neg hloud, hz, htime]
          exact if_neg hold
        rw [ends]
        exact ⟨rfl, ⟨fun h => absurd h hno, fun _ _ => by rw [hz, hc]; exact (if_neg hold).symm⟩, fun _ => rfl,
          fun b hb hb' => absurd (since b hb ▸ hb') hold⟩

theorem CutoffDelivered.of_detector {z t : State} {m : BitVec 4} (hz : z = x.withDetector z.detector)
    (h : CutoffDelivered s levels z m t) : CutoffDelivered s levels x m t := by
  obtain ⟨hidle, hdone⟩ := h
  refine ⟨fun hc => ?_, fun b hb hold hno hpos => ?_⟩
  · rw [hidle hc, hz]
    rfl
  · obtain ⟨w, hw, hq, ht⟩ := hdone b hb hold hno hpos
    refine ⟨w, ?_, hq, ht⟩
    rw [hw, hz]
    rfl

/-- Steps 4 to 6 together. -/
theorem FrameEntered.testFrame (h : FrameEntered s x levels hist) :
    TestedOn s levels hist (firingMask x) (testFrame x) ∧
      (∀ c : Fin 4, (Machine.available s).getLsbD c.val = true → (channel (Machine.testFrame x) c).history = hist c) ∧
      (∀ c : Fin 4, (Machine.available s).getLsbD c.val = false → channel (Machine.testFrame x) c = channel x c) ∧
      CutoffMoved s levels (applicableMask x) (Machine.testFrame x) ∧ CutoffDelivered s levels x (applicableMask x) (Machine.testFrame x) ∧
      (Machine.testFrame x).detector = { x.detector with
        channels := (Machine.testFrame x).detector.channels, gather := (testFiring (refractoryEnded x)).detector.gather
        cutoff := (Machine.testFrame x).detector.cutoff } := by
  obtain ⟨htested, hhist, hrest⟩ := h.tested
  obtain ⟨hfired, -⟩ := testFiring_spec (refractoryEnded x) rfl
  have hz : testFiring (refractoryEnded x) = x.withDetector (testFiring (refractoryEnded x)).detector := by
    rw [hfired]
    rfl
  have hdet : (testFiring (refractoryEnded x)).detector = { x.detector with
      channels := (testFiring (refractoryEnded x)).detector.channels
      gather := (testFiring (refractoryEnded x)).detector.gather } := by
    rw [hfired]
    rfl
  rw [show Machine.testFrame x = updateCutoff (testFiring (refractoryEnded x)) from rfl]
  generalize testFiring (refractoryEnded x) = z at htested hhist hrest hz hdet ⊢
  have mask : applicableMask z = applicableMask x := applicableMask_congr (by rw [hz]; rfl) (by rw [hz]; rfl) (by rw [hdet])
  obtain ⟨hcut, hmoved, hdelivered⟩ := updateCutoff_spec (s := s) (z := z) (levels := levels) (by rw [hz]; exact h.time)
    (available_congr (by rw [hdet]; exact h.count)) (by rw [hz]; exact h.tables) (by rw [hdet]; exact h.cutoff)
    fun c hc => by rw [hhist c hc, h.newest c hc]
  have chan : ∀ c, channel (updateCutoff z) c = channel z c := fun c => by rw [channel, hcut, channel]
  rw [mask] at hmoved hdelivered
  refine ⟨fun c hc => by rw [chan]; exact htested c hc, fun c hc => by rw [chan]; exact hhist c hc, fun c hc => by rw [chan]; exact hrest c hc,
    hmoved, hdelivered.of_detector hz, ?_⟩
  rw [hcut, hdet]

end

/-! ### Step 3 (R91) -/

/-- A gather closes, and its onset is delivered, or nothing happens. -/
theorem closeGather_of_open {y : State} {g : Gather} (hg : y.detector.gather = some g) (h : 2000 ≤ tdiff y.partTime g.opened) :
    closeGather y = deliverOnset (y.withDetector { y.detector with
      gather := none
      lastOnset := some { onset := gatherOnset g, delivered := y.partTime, qualified := qualified y (gatherOnset g) } }) (gatherOnset g) := by
  rw [closeGather, hg]
  exact if_pos h

theorem closeGather_of_young {y : State} (h : ∀ g, y.detector.gather = some g → tdiff y.partTime g.opened < 2000) :
    closeGather y = y := by
  unfold closeGather
  split
  · rename_i g hg
    exact if_neg (show ¬(2000 : Int) ≤ _ from not_le.mpr (h g hg))
  · rfl

theorem closeGather_detector (y : State) : (closeGather y).detector = { y.detector with
    gather := (closeGather y).detector.gather, lastOnset := (closeGather y).detector.lastOnset } := by
  unfold closeGather
  split
  · simp only
    split
    · simp
    · rfl
  · rfl

theorem FrameEntered.closed {s y : State} {levels : List Nat} {hist : Fin 4 → List Nat} (h : FrameEntered s y levels hist) :
    FrameEntered s (closeGather y) levels hist := by
  have hdet := closeGather_detector y
  refine ⟨(by simp : _ = y.partTime).trans h.time, (by simp : _ = y.tables).trans h.tables, by rw [hdet]; exact h.count,
    by rw [hdet]; exact h.boost, by rw [hdet]; exact h.cutoff, fun c hc => ?_, h.newest⟩
  rw [channel, hdet]
  exact h.entered c hc

/-! ### Steps 1 and 2 (R82, R83, R85) -/

theorem enterLevel_fillGap {m l : Nat} {h : List Nat} (hne : h ≠ []) :
    enterLevel l (fillGap m h) = (l :: (List.replicate m (h.headD 0) ++ h)).take 9 := by
  cases h with
  | nil => exact absurd rfl hne
  | cons a h => simp [enterLevel, fillGap, List.take_take]

/-- The histories after a frame of a FRESH pickup. -/
def enteredHistory (s : State) (last q : Byte) (levels : List Nat) (c : Fin 4) : List Nat :=
  (levels.getD c.val 0 :: (List.replicate (q - last - 1).toNat ((channel s c).history.headD 0) ++ (channel s c).history)).take 9

theorem frameEntered_enterFrame {s : State} (last q : Byte) (levels : List Nat)
    (hne : ∀ c : Fin 4, (available s).getLsbD c.val = true → (channel s c).history ≠ []) :
    FrameEntered s (enterFrame s last q levels) levels (enteredHistory s last q levels) := by
  refine ⟨rfl, rfl, rfl, rfl, rfl, fun c hc => ?_, fun c _ => rfl⟩
  have same : channel (enterFrame s last q levels) c = channel (mapChannels s fun c ch =>
    { ch with history := enterLevel (levels.getD c.val 0) (fillGap (missingFrames last q) ch.history) }) c := rfl
  rw [same, channel_mapped, if_pos hc, enterLevel_fillGap (hne c hc)]
  rfl

/-- The histories of a pickup that becomes FRESH. -/
def wholeHistory (levels : List Nat) (c : Fin 4) : List Nat := List.replicate 9 (levels.getD c.val 0)

theorem freshen_eq (s : State) (q : Byte) (levels : List Nat) : freshen s q levels =
    (postAlert s (.pickup false s.partTime)).withDetector { s.detector with
      fresh := true, seq := some q, lastArrival := some s.partTime
      channels := (mapChannels s fun c ch => { ch with history := List.replicate 9 (levels.getD c.val 0) }).detector.channels } := by
  unfold freshen postAlert
  simp only [mapChannels_keeps, State.withDetector_handler]
  split <;> rfl

theorem frameEntered_freshen (s : State) (q : Byte) (levels : List Nat) :
    FrameEntered s (freshen s q levels) levels (wholeHistory levels) := by
  refine ⟨by simp [freshen], by simp [freshen], by rw [freshen_eq]; rfl, by rw [freshen_eq]; rfl, by rw [freshen_eq]; rfl,
    fun c hc => ?_, fun c _ => rfl⟩
  have same : channel (freshen s q levels) c = channel (mapChannels s fun c ch =>
    { ch with history := List.replicate 9 (levels.getD c.val 0) }) c := by rw [freshen_eq]; rfl
  rw [same, channel_mapped, if_pos hc]
  rfl

/-- The pickup becomes FRESH, and the frame is handled. -/
theorem freshFrame_spec (s : State) (q : Byte) (levels : List Nat) :
    (handleFrame (freshen s q levels)).detector.fresh = true ∧ (handleFrame (freshen s q levels)).detector.seq = some q ∧
      (handleFrame (freshen s q levels)).detector.lastArrival = some s.partTime ∧
      (∀ c : Fin 4, (available s).getLsbD c.val = true → (channel (handleFrame (freshen s q levels)) c).history = wholeHistory levels c) ∧
      (s.handler.alerts.length < 16 → .pickup false s.partTime ∈ (handleFrame (freshen s q levels)).handler.alerts) ∧
      (s.detector.gather = none →
        TestedOn s levels (wholeHistory levels) (applicableMask s) (handleFrame (freshen s q levels)) ∧
          OpensOn s levels (wholeHistory levels) (applicableMask s) (handleFrame (freshen s q levels)) ∧
          CutoffMoved s levels (applicableMask s) (handleFrame (freshen s q levels)) ∧
          CutoffDelivered s levels (postAlert s (.pickup false s.partTime)) (applicableMask s) (handleFrame (freshen s q levels))) := by
  have entered := frameEntered_freshen s q levels
  obtain ⟨-, hhist, -, -, -, hdet⟩ := entered.closed.testFrame
  have closed := closeGather_detector (freshen s q levels)
  rw [handleFrame_eq]
  refine ⟨by rw [hdet, closed, freshen_eq]; rfl, by rw [hdet, closed, freshen_eq]; rfl, by rw [hdet, closed, freshen_eq]; rfl, hhist,
    fun hroom => ?_, fun hnone => ?_⟩
  · refine (evolves_handleFrame (freshen s q levels)).handler.mem _ ?_
    rw [freshen_eq, postAlert_of_room hroom]
    simp
  · have hg : (freshen s q levels).detector.gather = none := by rw [freshen_eq]; exact hnone
    have same : closeGather (freshen s q levels) = freshen s q levels := closeGather_of_young fun g h => by rw [hg] at h; cases h
    have mask : applicableMask (freshen s q levels) = applicableMask s :=
      applicableMask_congr (by simp [freshen]) (by simp [freshen]) entered.count
    have firing : firingMask (freshen s q levels) = applicableMask s := by rw [firingMask, hg, ← mask]
    obtain ⟨htested, -, -, hmoved, hdelivered, hgather⟩ := entered.testFrame
    obtain ⟨hno, hopen⟩ := entered.opens hg
    rw [firing] at htested
    rw [mask] at hmoved hdelivered hno hopen
    rw [same]
    refine ⟨htested, ⟨fun h => ?_, fun c h => ?_⟩, hmoved, hdelivered.of_detector ?_⟩
    · rw [hgather]; exact hno h
    · rw [hgather]; exact hopen c h
    · rw [freshen_eq]
      rfl

section

variable {s : State} (last q : Byte) (levels : List Nat)
  (hne : ∀ c : Fin 4, (available s).getLsbD c.val = true → (channel s c).history ≠ [])

include hne

/-- On every frame of a FRESH pickup: the histories, and what no frame changes. -/
theorem laterFrame_spec (hfresh : s.detector.fresh = true) :
    (handleFrame (enterFrame s last q levels)).detector.fresh = true ∧
      (handleFrame (enterFrame s last q levels)).detector.seq = some q ∧
      (handleFrame (enterFrame s last q levels)).detector.lastArrival = some s.partTime ∧
      (handleFrame (enterFrame s last q levels)).detector.boostUntil = s.detector.boostUntil ∧
      (∀ c : Fin 4, (available s).getLsbD c.val = true →
        (channel (handleFrame (enterFrame s last q levels)) c).history = enteredHistory s last q levels c) ∧
      ∀ c : Fin 4, (available s).getLsbD c.val = false → channel (handleFrame (enterFrame s last q levels)) c = channel s c := by
  obtain ⟨-, hhist, hrest, -, -, hdet⟩ := (frameEntered_enterFrame last q levels hne).closed.testFrame
  have closed := closeGather_detector (enterFrame s last q levels)
  rw [handleFrame_eq]
  refine ⟨by rw [hdet, closed]; exact hfresh, by rw [hdet, closed]; rfl, by rw [hdet, closed]; rfl, by rw [hdet, closed]; rfl, hhist,
    fun c hc => ?_⟩
  have same : channel (enterFrame s last q levels) c = channel (mapChannels s fun c ch =>
    { ch with history := enterLevel (levels.getD c.val 0) (fillGap (missingFrames last q) ch.history) }) c := rfl
  rw [hrest c hc, channel, closed, ← channel, same, channel_mapped, if_neg (by rw [hc]; decide)]

/-- On the frame that closes a gather the rest is tested after its onset, and a new gather may open. -/
theorem closingFrame_spec {g : Gather} (hg : s.detector.gather = some g) (hold : 2000 ≤ tdiff s.partTime g.opened) (u : State)
    (hu : u = (enterFrame s last q levels).withDetector { (enterFrame s last q levels).detector with
      gather := none
      lastOnset := some { onset := gatherOnset g, delivered := s.partTime, qualified := qualified s (gatherOnset g) } }) :
    (handleFrame (enterFrame s last q levels)).detector.lastOnset =
        some { onset := gatherOnset g, delivered := s.partTime, qualified := qualified s (gatherOnset g) } ∧
      let m := applicableMask (deliverOnset u (gatherOnset g))
      TestedOn s levels (enteredHistory s last q levels) m (handleFrame (enterFrame s last q levels)) ∧
        OpensOn s levels (enteredHistory s last q levels) m (handleFrame (enterFrame s last q levels)) ∧
        CutoffMoved s levels m (handleFrame (enterFrame s last q levels)) ∧
        CutoffDelivered s levels (deliverOnset u (gatherOnset g)) m (handleFrame (enterFrame s last q levels)) := by
  have entered := (frameEntered_enterFrame last q levels hne).closed
  have closes : closeGather (enterFrame s last q levels) = deliverOnset u (gatherOnset g) := by
    rw [closeGather_of_open (y := enterFrame s last q levels) hg hold, hu]
    rfl
  have udet : (deliverOnset u (gatherOnset g)).detector = u.detector := by simp
  have none_ : (deliverOnset u (gatherOnset g)).detector.gather = none := by rw [udet, hu]; rfl
  rw [handleFrame_eq]
  rw [closes] at entered ⊢
  obtain ⟨htested, -, -, hmoved, hdelivered, hdet⟩ := entered.testFrame
  obtain ⟨hno, hopen⟩ := entered.opens none_
  have firing : firingMask (deliverOnset u (gatherOnset g)) = applicableMask (deliverOnset u (gatherOnset g)) := by
    rw [firingMask, none_]
  rw [firing] at htested
  refine ⟨by rw [hdet, udet, hu]; rfl, htested, ⟨fun h => ?_, fun c h => ?_⟩, hmoved, hdelivered⟩
  · rw [hdet]; exact hno h
  · rw [hdet]; exact hopen c h

/-- On any other frame the mask in force is that of the open gather, or the applicable one. -/
theorem openFrame_spec (hyoung : ∀ g, s.detector.gather = some g → tdiff s.partTime g.opened < 2000) :
    (handleFrame (enterFrame s last q levels)).detector.lastOnset = s.detector.lastOnset ∧
      CutoffMoved s levels (applicableMask s) (handleFrame (enterFrame s last q levels)) ∧
      CutoffDelivered s levels s (applicableMask s) (handleFrame (enterFrame s last q levels)) ∧
      TestedOn s levels (enteredHistory s last q levels) (firingMask s) (handleFrame (enterFrame s last q levels)) ∧
      (handleFrame (enterFrame s last q levels)).detector.gather =
        (testFiring (refractoryEnded (enterFrame s last q levels))).detector.gather := by
  have entered := frameEntered_enterFrame last q levels hne
  have same : closeGather (enterFrame s last q levels) = enterFrame s last q levels := closeGather_of_young hyoung
  rw [handleFrame_eq, same]
  obtain ⟨htested, -, -, hmoved, hdelivered, hdet⟩ := entered.testFrame
  exact ⟨by rw [hdet]; rfl, hmoved, hdelivered.of_detector rfl, htested, by rw [hdet]⟩

end

/-- Settles O42: the frame enters the histories, a gather that is over closes, and the rest of the frame is tested on what then stands. -/
theorem levelFramesFillHistoriesAndFire : Obligations.LevelFramesFillHistoriesAndFire := by
  unfold Obligations.LevelFramesFillHistoriesAndFire
  intro s bytes hr
  have run : ∀ t, arriveLevels s bytes = t → exec (.levelFrame bytes) s = .next t := fun t ht => by
    rw [exec_of_due (s := s) (row := .levelFrame bytes) (isDue := true) (act := arriveLevels s bytes) rfl rfl hr, ht]
  refine ⟨fun hn => run s (by rw [arriveLevels, hn]), ?_⟩
  intro q levels hread now p ended rises threshold fires tested opens loud noCutoff cutoffMoves cutoffAfter
  have arrive : arriveLevels s bytes = takeLevels s q levels := by rw [arriveLevels, hread]
  refine ⟨fun hfresh hseq => run s ?_, fun hstale => ⟨_, run _ ?_, freshFrame_spec s q levels⟩, ?_⟩
  · rw [arrive, takeLevels, if_pos hfresh, hseq]
    exact if_pos rfl
  · rw [arrive, takeLevels, if_neg (by simp [hstale])]
  · intro last hfresh hseq hq missing entered onset closed hne
    have taken : arriveLevels s bytes = handleFrame (enterFrame s last q levels) := by
      rw [arrive, takeLevels, if_pos hfresh, hseq]
      exact if_neg hq
    obtain ⟨tfresh, tseq, tlast, tboost, thist, trest⟩ := laterFrame_spec last q levels hne hfresh
    refine ⟨_, run _ taken, tfresh, tseq, tlast, tboost, thist, trest, fun g hg hold => ?_, fun hyoung => ?_, ?_, fun hnone => ?_⟩
    · obtain ⟨hlast, rest⟩ := closingFrame_spec last q levels hne hg hold _ rfl
      exact ⟨hlast, _, rfl, rest⟩
    · obtain ⟨hlast, hmoved, hdelivered, -⟩ := openFrame_spec last q levels hne hyoung
      exact ⟨hlast, hmoved, hdelivered⟩
    · intro g hg hyoung joins
      have young : ∀ k, s.detector.gather = some k → tdiff s.partTime k.opened < 2000 := fun k hk => by
        rw [hg] at hk
        exact Option.some.inj hk ▸ hyoung
      obtain ⟨-, -, -, htested, hgather⟩ := openFrame_spec last q levels hne young
      have firing : firingMask s = g.mask := by rw [firingMask, hg]
      rw [firing] at htested
      rw [hgather]
      exact ⟨htested, (frameEntered_enterFrame last q levels hne).joins (x := enterFrame s last q levels) hg⟩
    · obtain ⟨-, -, -, htested, hgather⟩ := openFrame_spec last q levels hne fun k hk => by rw [hnone] at hk; cases hk
      have firing : firingMask s = applicableMask s := by rw [firingMask, hnone]
      obtain ⟨hno, hopen⟩ := (frameEntered_enterFrame last q levels hne).opens (x := enterFrame s last q levels) hnone
      rw [firing] at htested
      exact ⟨htested, fun h => hgather.trans (hno h), fun c h => by rw [hgather]; exact hopen c h⟩

end Machine

end Sys2Proof
end

section
/-! PROOF. Timers, anchors, due times and corrections (O43, O45). -/

namespace Sys2Proof

namespace Machine

set_option Elab.async false

/-! ### Time differences and the position formula (R57, R58) -/

theorem tdiff_after {t : PartTime} {o : Int} (h1 : -2147483648 ≤ o) (h2 : o < 2147483648) : tdiff (after t o) t = o := by
  have : after t o - t = BitVec.ofInt 32 o := by rw [after, add_comm, BitVec.add_sub_cancel]
  rw [tdiff, this, BitVec.toInt_ofInt]
  exact Int.bmod_eq_of_le (by norm_num; exact h1) (by norm_num; exact h2)

theorem ceilDiv_le_iff {a b o : Int} (hb : 0 < b) : ceilDiv a b ≤ o ↔ a ≤ o * b := by
  unfold ceilDiv
  rw [neg_le, Int.le_ediv_iff_mul_le hb]
  constructor <;> intro h <;> linarith

/-- The due time of a position is the earliest time whose position is not below it. -/
theorem le_rawAt_iff {c : Clock} (hp : 0 < c.period) (x : Pos) {o : Int} (h1 : -2147483648 ≤ o) (h2 : o < 2147483648) :
    x ≤ rawAt c (after c.t0 o) ↔ ceilDiv ((x - c.x0) * (c.period : Int)) 24576 ≤ o := by
  have hp' : (0 : Int) < (c.period : Int) := by exact_mod_cast hp
  rw [ceilDiv_le_iff (by norm_num), rawAt, tdiff_after h1 h2, ← Int.le_ediv_iff_mul_le hp']
  change x ≤ c.x0 + o * 24576 / (c.period : Int) ↔ x - c.x0 ≤ o * 24576 / (c.period : Int)
  constructor <;> intro h <;> linarith

/-- At 24,576 tu a beat and slower no position is jumped over. -/
theorem ceilDiv_exact {d p : Int} (hp : 24576 ≤ p) : ceilDiv (d * p) 24576 * 24576 / p = d := by
  have hle : d * p ≤ ceilDiv (d * p) 24576 * 24576 := (ceilDiv_le_iff (by norm_num)).mp le_rfl
  have hlt : (ceilDiv (d * p) 24576 - 1) * 24576 < d * p := by
    by_contra h
    have := (ceilDiv_le_iff (a := d * p) (b := 24576) (by norm_num)).mpr (not_lt.mp h)
    linarith
  have h0 : 0 < p := by linarith
  refine Int.le_antisymm ?_ ((Int.le_ediv_iff_mul_le h0).mpr hle)
  refine Int.lt_add_one_iff.mp (Int.ediv_lt_of_lt_mul h0 ?_)
  linarith

theorem dueIn_eq {s : State} (h : s.clock.state ≠ .stopped) (x : Pos) :
    dueIn s x = if blockedBy s.follower.stop x then none else some (timeTo s x) := by
  unfold dueIn
  split
  · rename_i hs; exact absurd hs h
  · rfl

theorem timeTo_eq {s : State} (x : Pos) : timeTo s x = if s.clock.state = .moving
    then tdiff s.clock.t0 s.partTime + ceilDiv ((x - s.clock.x0) * (s.clock.period : Int)) 24576
    else ceilDiv ((x - s.clock.x0) * (s.clock.period : Int)) 24576 := by
  unfold timeTo
  cases s.clock.state <;> rfl

/-- What the formula answers over two spans is within one subtick of what it answers over both together. -/
theorem ediv_add_bounds (a b : Int) {p : Int} (hp : 0 < p) : a / p + b / p ≤ (a + b) / p ∧ (a + b) / p ≤ a / p + b / p + 1 := by
  have ha := Int.mul_ediv_add_emod a p
  have hb := Int.mul_ediv_add_emod b p
  have ha1 := Int.emod_lt_of_pos a hp
  have hb1 := Int.emod_lt_of_pos b hp
  have ha0 := Int.emod_nonneg a hp.ne'
  have hb0 := Int.emod_nonneg b hp.ne'
  constructor
  · rw [Int.le_ediv_iff_mul_le hp]
    nlinarith
  · refine Int.lt_add_one_iff.mp (Int.ediv_lt_of_lt_mul hp ?_)
    nlinarith

/-! ### Rounding (R70) -/

theorem roundHalfAway_spec (a : Int) : 2 * (16 * roundHalfAway a 16 - a).natAbs ≤ 16 ∧
    (2 * (16 * roundHalfAway a 16 - a).natAbs = 16 → a.natAbs < 16 * (roundHalfAway a 16).natAbs) := by
  unfold roundHalfAway
  rcases lt_trichotomy a 0 with h | rfl | h
  · rw [Int.sign_eq_neg_one_of_neg h]
    omega
  · decide
  · rw [Int.sign_eq_one_of_pos h]
    omega

/-! ### Where a re-anchor leaves the clock (R61) -/

theorem position_le_stop {s : State} (h : s.clock.state = .moving) {st : StopPoint} (hst : s.follower.stop = some st) :
    position s ≤ st.pos := by
  rw [position, h, hst]
  exact min_le_right _ _

/-- The position on the line a re-anchor installs, cut at the stop point. -/
theorem position_installAnchor (s : State) (ta : PartTime) (xa : Pos) (p : Nat) : position (installAnchor s ta xa p) =
    cutAt s.follower.stop (rawAt { s.clock with t0 := ta, x0 := xa, period := p } s.partTime) := by
  unfold installAnchor
  cases hst : s.follower.stop with
  | none =>
    change cutAt s.follower.stop _ = _
    rw [hst]
    rfl
  | some st =>
    simp only
    split
    · rename_i hle
      exact (min_eq_right hle).symm
    · change cutAt s.follower.stop _ = _
      rw [hst]
      rfl

theorem position_raiseHighest (s : State) (x : Pos) (t : PartTime) : position (raiseHighest s x t) = position s := by
  rw [position, raiseHighest_clock, raiseHighest_follower, (raiseHighest_keeps s x t).1]
  rfl

/-- A tempo applied where the clock stands does not move it. -/
theorem position_applyPendingTempo (s : State) : position (applyPendingTempo s (position s)) = position s := by
  unfold applyPendingTempo
  split
  · cases hm : s.clock.state with
    | stopped => exact position_of_not_moving (by simp [hm])
    | held => exact position_of_not_moving (by simp [hm])
    | moving =>
      rename_i p _
      have same : ∀ c : Clock, c.state = .moving → c.t0 = s.partTime → c.x0 = position s → position (s.withClock c) = position s := by
        intro c h1 h2 h3
        have : position (s.withClock c) = cutAt s.follower.stop (rawAt c s.partTime) := by
          rw [position, State.withClock_clock, h1]
          rfl
        rw [this, ← h2, rawAt_now, h3]
        cases hst : s.follower.stop with
        | none => rfl
        | some st => exact min_eq_left (position_le_stop hm hst)
      exact same _ hm rfl rfl
  · rfl

theorem position_riseTo (s : State) (x : Pos) (t : PartTime) : position (riseTo s x t (position s)) = position s := by
  unfold riseTo
  simp only
  split
  · exact position_raiseHighest s x t
  · have := position_applyPendingTempo (raiseHighest s x t)
    rwa [position_raiseHighest] at this

theorem position_reanchor (s : State) (ta : PartTime) (xa : Pos) (p : Nat) : position (reanchor s ta xa p) =
    cutAt s.follower.stop (rawAt { s.clock with t0 := ta, x0 := xa, period := p } s.partTime) := by
  rw [reanchor, position_riseTo, position_installAnchor]

theorem installAnchor_pendingTempo (s : State) (ta : PartTime) (xa : Pos) (p : Nat) :
    (installAnchor s ta xa p).clock.pendingTempo = s.clock.pendingTempo := by
  unfold installAnchor
  split
  · simp only
    split <;> rfl
  · rfl

theorem reanchor_period {s : State} (h : s.clock.pendingTempo = none) (ta : PartTime) (xa : Pos) (p : Nat) :
    (reanchor s ta xa p).clock.period = p := by
  simp only [reanchor]
  rw [riseTo_of_no_tempo ((installAnchor_pendingTempo s ta xa p).trans h), raiseHighest_clock]
  exact installAnchor_period s ta xa p

/-- Held at its stop point the clock stays there through a re-anchor. -/
theorem reanchor_held_at_stop {s : State} (hs : s.follower.stop.map StopPoint.pos = some s.clock.x0) (p : Nat) :
    (reanchor s s.partTime s.clock.x0 p).clock.state = .held ∧ (reanchor s s.partTime s.clock.x0 p).clock.x0 = s.clock.x0 := by
  obtain ⟨st, hst, hpos⟩ := Option.map_eq_some_iff.mp hs
  have hraw : rawAt { s.clock with t0 := s.partTime, x0 := s.clock.x0, period := p } s.partTime = s.clock.x0 := rawAt_now _
  have installed : installAnchor s s.partTime s.clock.x0 p =
      s.withClock { s.clock with state := .held, t0 := s.partTime, period := p } := by
    unfold installAnchor
    simp only [hst, hpos]
    exact if_pos hraw.ge
  simp only [reanchor]
  rw [riseTo_state, riseTo_x0 (position_of_not_moving (by rw [installed]; nofun)), installed]
  exact ⟨rfl, rfl⟩

theorem le_cutAt {s : State} (h : s.clock.state = .moving) {x y : Pos} (hp : y ≤ position s) (hx : y ≤ x) :
    y ≤ cutAt s.follower.stop x := by
  cases hst : s.follower.stop with
  | none => exact hx
  | some st => exact le_min hx (hp.trans (position_le_stop h hst))

/-! ### Timers and anchors -/

/-- Settles O43: each timer at its time and before, and the renewed line against the old one. -/
theorem timersExpireAndAnchorsAreRenewed : Obligations.TimersExpireAndAnchorsAreRenewed := by
  unfold Obligations.TimersExpireAndAnchorsAreRenewed
  refine ⟨fun s hr => ⟨fun a hfresh ha hold hroom => ?_, fun hyoung => ?_, fun b hb => ?_, fun d k u hu => ?_, fun hm hold => ?_, fun h => ?_⟩,
    fun c now later hp hdiff => ?_⟩
  · have hdue : staleDue s = true := by
      rw [staleDue, hfresh, ha]
      exact decide_eq_true hold
    refine ⟨becomeStale s, exec_of_due (act := becomeStale s) rfl hdue hr, ?_, fun c => ?_⟩
    · have time : staleTime s = after a 5000 := by rw [staleTime, ha]; rfl
      rw [becomeStale, postAlert_of_room (by simpa using hroom), time]
      rfl
    · obtain ⟨-, -, -, -, hchan⟩ := restDetector_detector s
      have same : channel (becomeStale s) c = vget (restDetector s).detector.channels c := by
        have : (becomeStale s).detector.channels = (restDetector s).detector.channels := by simp [becomeStale]
        rw [channel, this]
      rw [same]
      exact hchan c
  · refine exec_of_not_due (act := becomeStale s) rfl (Bool.eq_false_iff.mpr fun hdue => ?_)
    obtain ⟨hfresh, hage⟩ := Bool.and_eq_true_iff.mp hdue
    cases ha : s.detector.lastArrival with
    | none => rw [ha] at hage; cases hage
    | some a =>
      rw [ha] at hage
      exact absurd (of_decide_eq_true hage) (not_le.mpr (hyoung a hfresh ha))
  · have hdue : boostDue s = decide (0 ≤ tdiff s.partTime b) := by rw [boostDue, hb]; rfl
    split
    · rename_i h
      exact exec_of_due (act := endBoost s) rfl (hdue.trans (decide_eq_true h)) hr
    · rename_i h
      exact exec_of_not_due (act := endBoost s) rfl (hdue.trans (decide_eq_false h))
  · have hdue : keyUpOld s d k = decide (1073741824 ≤ tdiff s.partTime u) := by rw [keyUpOld, hu]; rfl
    split
    · rename_i h
      exact exec_of_due (act := forgetKeyUp s d k) rfl (hdue.trans (decide_eq_true h)) hr
    · rename_i h
      exact exec_of_not_due (act := forgetKeyUp s d k) rfl (hdue.trans (decide_eq_false h))
  · have hdue : renewalDue s = true := by
      rw [renewalDue, hm]
      exact decide_eq_true hold
    exact exec_of_due (act := renewAnchor s) rfl hdue hr
  · refine exec_of_not_due (act := renewAnchor s) rfl (Bool.eq_false_iff.mpr fun hdue => ?_)
    obtain ⟨hm, hold⟩ := Bool.and_eq_true_iff.mp hdue
    rcases h with h | h
    · exact h (of_decide_eq_true hm)
    · exact absurd (of_decide_eq_true hold) (not_le.mpr h)
  · intro renewed
    have hp' : (0 : Int) < (c.period : Int) := by exact_mod_cast hp
    have hnow : rawAt renewed later = c.x0 + tdiff now c.t0 * 24576 / (c.period : Int) + tdiff later now * 24576 / (c.period : Int) := rfl
    have hold : rawAt c later = c.x0 + (tdiff now c.t0 * 24576 + tdiff later now * 24576) / (c.period : Int) := by
      rw [rawAt, hdiff, add_mul]
      rfl
    obtain ⟨h1, h2⟩ := ediv_add_bounds (tdiff now c.t0 * 24576) (tdiff later now * 24576) hp'
    rw [hnow, hold]
    constructor
    · linarith
    · linarith

/-! ### Due times and corrections -/

/-- Settles O45: a correction is a re-anchor, so its bounds are those of the line it installs. -/
theorem dueTimesAndCorrections : Obligations.DueTimesAndCorrections := by
  unfold Obligations.DueTimesAndCorrections
  refine ⟨fun s x hp => ?_, fun s tOn e both => ?_⟩
  · intro span
    refine ⟨fun o h1 h2 => le_rawAt_iff hp x h1 h2, fun hslow h1 h2 => ?_, fun hs => ?_, fun hs => ?_⟩
    · have hexact : span * 24576 / (s.clock.period : Int) = x - s.clock.x0 := ceilDiv_exact (by exact_mod_cast hslow)
      rw [rawAt, tdiff_after h1 h2]
      change s.clock.x0 + span * 24576 / (s.clock.period : Int) = x
      rw [hexact]
      exact add_sub_cancel _ _
    · rw [dueIn, hs]
    · intro formula
      have htime : timeTo s x = if s.clock.state = .moving then tdiff s.clock.t0 s.partTime + span else span := timeTo_eq x
      refine ⟨fun hn => ?_, fun st hst => ⟨fun hlt => ?_, fun heq => ?_, fun hgt => ?_⟩⟩
      · rw [dueIn_eq hs, htime, hn]
        rfl
      · rw [dueIn_eq hs, htime, hst, if_neg]
        simp [blockedBy, not_lt.mpr hlt.le, hlt.ne]
      · rw [dueIn_eq hs, htime, hst, heq]
        by_cases hk : st.kind = .end_
        · rw [if_pos hk, if_neg (by simp [blockedBy, hk])]
        · rw [if_neg hk, if_pos (by simp [blockedBy, hk])]
      · rw [dueIn_eq hs, hst, if_pos]
        simp [blockedBy, hgt]
  · intro f j t
    have hperiod : correctedPeriod f s.clock.period e both = if both then max f.pmin
        (min ((s.clock.period : Int) + periodPart f s.clock.period e).toNat f.pmax) else s.clock.period := rfl
    have stopped : s.clock.state = .stopped → t = s := fun h => by simp only [t, correct, h]
    have held : s.clock.state = .held → t = reanchor s s.partTime s.clock.x0 (correctedPeriod f s.clock.period e both) := fun h => by
      simp only [t, correct, h, f]
    have moving : s.clock.state = .moving → t =
        if rawAt { s.clock with t0 := tOn, x0 := rawAt s.clock tOn + phasePart f e, period := correctedPeriod f s.clock.period e both }
          s.partTime < position s - j then reanchor s s.partTime (position s - j) (correctedPeriod f s.clock.period e both)
        else reanchor s tOn (rawAt s.clock tOn + phasePart f e) (correctedPeriod f s.clock.period e both) := fun h => by
      simp only [t, correct, h, f, j, onsetPosition]
      rfl
    have period : s.clock.state ≠ .stopped → s.clock.pendingTempo = none →
        t.clock.period = correctedPeriod f s.clock.period e both := fun h hn => by
      cases hc : s.clock.state with
      | stopped => exact absurd hc h
      | held => rw [held hc, reanchor_period hn]
      | moving =>
        rw [moving hc]
        split
        · exact reanchor_period hn _ _ _
        · exact reanchor_period hn _ _ _
    have hj : 0 ≤ j := Int.mul_nonneg (Int.natCast_nonneg _) (by norm_num)
    refine ⟨⟨roundHalfAway (e * (f.kp : Int)) 16, (roundHalfAway_spec _).1, (roundHalfAway_spec _).2, rfl⟩, rfl, stopped, fun h hs => ?_,
      ⟨held, fun h hx => ?_, fun h hx => ?_⟩, fun h => ?_, fun h hn => ⟨fun hb => ?_, fun hb hle => ?_⟩⟩
    · rw [held h]
      exact reanchor_held_at_stop hs _
    · exact (moving h).trans (if_neg (not_lt.mpr hx))
    · exact (moving h).trans (if_pos hx)
    · rw [moving h]
      split
      · rw [position_reanchor]
        refine le_cutAt h (by linarith) ?_
        exact (rawAt_now { s.clock with t0 := s.partTime, x0 := position s - j, period := correctedPeriod f s.clock.period e both }).ge
      · rename_i hx
        rw [position_reanchor]
        exact le_cutAt h (by linarith) (not_lt.mp hx)
    · rw [period h hn, hperiod, hb]
      rfl
    · rw [period h hn, hperiod, if_pos hb]
      exact ⟨le_max_left _ _, max_le hle (min_le_right _ _), rfl⟩

end Machine

end Sys2Proof
end

section
/-! PROOF. Beat boundaries and stop points (O44): the line a re-anchor installs, the one boundary counted at its reach time, the clock held
at a stop point, and what the follower does there. -/

namespace Sys2Proof

namespace Machine

set_option Elab.async false

/-! ### The line a re-anchor installs (R61) -/

/-- A new line that has not reached the stop point leaves the clock MOVING on it. -/
theorem reanchor_runs {s : State} (hn : s.clock.pendingTempo = none) {ta : PartTime} {xa : Pos} {p : Nat} {y : Pos}
    (hy : rawAt { s.clock with t0 := ta, x0 := xa, period := p } s.partTime = y)
    (hs : ∀ st, s.follower.stop = some st → y < st.pos) : reanchor s ta xa p =
      raiseHighest (s.withClock { s.clock with state := .moving, t0 := ta, x0 := xa, period := p }) (max (position s) y) s.partTime := by
  have installed : installAnchor s ta xa p = s.withClock { s.clock with state := .moving, t0 := ta, x0 := xa, period := p } := by
    unfold installAnchor
    cases hstop : s.follower.stop with
    | none => rfl
    | some st => exact if_neg (by rw [hy]; exact not_le.mpr (hs st hstop))
  have here : position (installAnchor s ta xa p) = y := by
    rw [position_installAnchor, hy]
    cases hstop : s.follower.stop with
    | none => rfl
    | some st => exact min_eq_left (hs st hstop).le
  simp only [reanchor]
  rw [here, installed]
  exact riseTo_of_no_tempo (by exact hn) _ _ _

/-- A new line that has reached the stop point leaves the clock HELD there. -/
theorem reanchor_holds {s : State} (hn : s.clock.pendingTempo = none) {ta : PartTime} {xa : Pos} {p : Nat} {st : StopPoint}
    (hst : s.follower.stop = some st) (hle : st.pos ≤ rawAt { s.clock with t0 := ta, x0 := xa, period := p } s.partTime) :
    reanchor s ta xa p = raiseHighest (s.withClock { s.clock with state := .held, t0 := s.partTime, x0 := st.pos, period := p })
      (max (position s) st.pos) s.partTime := by
  have installed : installAnchor s ta xa p =
      s.withClock { s.clock with state := .held, t0 := s.partTime, x0 := st.pos, period := p } := by
    unfold installAnchor
    rw [hst]
    exact if_pos hle
  have here : position (installAnchor s ta xa p) = st.pos := by
    rw [position_installAnchor, hst]
    exact min_eq_right hle
  simp only [reanchor]
  rw [here, installed]
  exact riseTo_of_no_tempo (by exact hn) _ _ _

/-! ### The boundary at its reach time (R74, R65) -/

theorem beatIndex_nextBoundary (s : State) : beatIndex s (nextBoundary s) = beatIndex s s.clock.highest + 1 := by
  rw [beatIndex, nextBoundary, add_sub_cancel_left]
  exact Int.mul_ediv_cancel _ (by decide)

theorem highest_lt_nextBoundary (s : State) : s.clock.highest < nextBoundary s := by
  have h := Int.lt_ediv_add_one_mul_self (s.clock.highest - s.follower.origin) (b := 24576) (by norm_num)
  change s.clock.highest < s.follower.origin + ((s.clock.highest - s.follower.origin) / 24576 + 1) * 24576
  linarith

theorem crossings_nextBoundary (s : State) : crossings s (nextBoundary s) = 1 := by
  rw [crossings, if_pos (highest_lt_nextBoundary s), beatIndex_nextBoundary, add_sub_cancel_left]
  rfl

theorem beatReported_one (s : State) :
    beatReported s 1 = true ↔ s.clock.rate ≠ 0 ∧ (s.clock.beats + 1#32).toNat % s.clock.rate = 0 := by
  rw [beatReported_iff]
  refine and_congr_right fun _ => ⟨fun ⟨k, h1, h2, h⟩ => ?_, fun h => ⟨1, le_rfl, le_rfl, h⟩⟩
  obtain rfl : k = 1 := le_antisymm h2 h1
  exact h

/-- The state in which the next boundary is counted. -/
def counted (s : State) : State := raiseHighest s (nextBoundary s) (reachTime s (nextBoundary s))

theorem counted_clock (s : State) : (counted s).clock = { s.clock with highest := nextBoundary s, beats := s.clock.beats + 1#32 } := by
  rw [counted, raiseHighest_clock, crossings_nextBoundary, max_eq_right (highest_lt_nextBoundary s).le]

/-- The BEAT alert of the boundary, when the report rate divides the new count. -/
theorem counted_alerts {s : State} (hroom : s.handler.alerts.length < 16) : (counted s).handler.alerts =
    if s.clock.rate ≠ 0 ∧ (s.clock.beats + 1#32).toNat % s.clock.rate = 0
      then s.handler.alerts ++ [.beat (s.clock.beats + 1#32) s.follower.current
        ((nextBoundary s - s.follower.origin) / 24576) (reachTime s (nextBoundary s))]
      else s.handler.alerts := by
  have hone := crossings_nextBoundary s
  split
  · rename_i h
    have hr : beatReported s (crossings s (nextBoundary s)) = true := by rw [hone]; exact (beatReported_one s).mpr h
    rw [counted, raiseHighest_alerts_of_reported hr hroom, hone]
    rfl
  · rename_i h
    have hr : ¬beatReported s (crossings s (nextBoundary s)) = true := by rw [hone]; exact fun hr => h ((beatReported_one s).mp hr)
    rw [counted, raiseHighest_handler_of_not_reported hr]

theorem crossBoundary_of_tempo {s : State} {p : Nat} (h : s.clock.pendingTempo = some p) : crossBoundary s =
    reanchor ((counted s).withClock { (counted s).clock with pendingTempo := none }) (reachTime s (nextBoundary s)) (nextBoundary s)
      (clampPeriod s p) := by
  simp [crossBoundary, h, counted]

theorem raiseHighest_handler_of_none {s : State} {x : Pos} (h : crossings s x = 0) (t : PartTime) :
    (raiseHighest s x t).handler = s.handler :=
  raiseHighest_handler_of_not_reported (by rw [h, beatReported_zero]; nofun) t

/-! ### The clock held at a stop point (R68) -/

/-- The clock HELD at `x`, before the highest position rises to it. -/
def heldAt (s : State) (x : Pos) : State := s.withClock { s.clock with state := .held, t0 := s.partTime, x0 := x }

theorem crossings_heldAt (s : State) (x : Pos) : crossings (heldAt s x) x = crossings s x := rfl

theorem applyPendingTempo_clock (s : State) (x : Pos) : (applyPendingTempo s x).clock = match s.clock.pendingTempo with
    | some p => { s.clock with t0 := s.partTime, x0 := x, period := clampPeriod s p, pendingTempo := none }
    | none => s.clock := by
  unfold applyPendingTempo
  split <;> simp_all

theorem holdClock_clock (s : State) (x : Pos) : (holdClock s x).clock = { s.clock with
    state := .held, t0 := s.partTime, x0 := x, highest := max s.clock.highest x
    beats := s.clock.beats + BitVec.ofNat 32 (crossings s x)
    period := if crossings s x = 0 then s.clock.period else (s.clock.pendingTempo.map (clampPeriod s)).getD s.clock.period
    pendingTempo := if crossings s x = 0 then s.clock.pendingTempo else none } := by
  have raised : ∀ t, (raiseHighest (heldAt s x) x t).clock = { s.clock with
      state := .held, t0 := s.partTime, x0 := x, highest := max s.clock.highest x
      beats := s.clock.beats + BitVec.ofNat 32 (crossings s x) } := fun t => by rw [raiseHighest_clock, crossings_heldAt]; rfl
  have hclamp : ∀ t, clampPeriod (raiseHighest (heldAt s x) x t) = clampPeriod s := fun t => funext fun q => by
    simp [clampPeriod, heldAt]
  have htime : ∀ t, (raiseHighest (heldAt s x) x t).partTime = s.partTime := fun t => by simp [heldAt]
  simp only [holdClock, riseTo]
  change (if crossings (heldAt s x) x = 0 then _ else _ : State).clock = _
  rw [crossings_heldAt]
  split
  · rename_i hn
    exact (raised _).trans (by rw [hn])
  · change (applyPendingTempo (raiseHighest (heldAt s x) x _) x).clock = _
    rw [applyPendingTempo_clock, raised, hclamp, htime]
    cases hp : s.clock.pendingTempo with
    | none => simp [hp]
    | some p => rfl

theorem length_raiseHighest {s : State} (hroom : s.handler.alerts.length < 16) (x : Pos) (t : PartTime) :
    (raiseHighest s x t).handler.alerts.length ≤ s.handler.alerts.length + 1 := by
  by_cases h : beatReported s (crossings s x) = true
  · rw [raiseHighest_alerts_of_reported h hroom]
    simp
  · rw [raiseHighest_handler_of_not_reported h]
    omega

theorem applyPendingTempo_handler (s : State) (x : Pos) : (applyPendingTempo s x).handler = s.handler := by
  unfold applyPendingTempo
  split <;> rfl

theorem riseTo_handler (s : State) (x : Pos) (t : PartTime) (now : Pos) :
    (riseTo s x t now).handler = (raiseHighest s x t).handler := by
  simp only [riseTo]
  split
  · rfl
  · exact applyPendingTempo_handler _ _

theorem length_holdClock {s : State} (hroom : s.handler.alerts.length < 16) (x : Pos) :
    (holdClock s x).handler.alerts.length ≤ s.handler.alerts.length + 1 := by
  simp only [holdClock]
  rw [riseTo_handler]
  exact length_raiseHighest (s := heldAt s x) hroom _ _

/-! ### What the follower does at a stop point (R114, R117, R121) -/

theorem settleFor_hold {s : State} {st : StopPoint} (n : Nat) (hh : s.clock.state = .held) (hp : playing s = true)
    (hst : s.follower.stop = some st) (hk : st.kind = .hold) (hb : endBehind s = none) :
    settleFor (n + 1) s = enterHolding s s.clock.x0 := by
  rw [settleFor, hh, hp, hst]
  dsimp only
  rw [hk, hb]

theorem settleFor_end {s : State} {st : StopPoint} (n : Nat) (hh : s.clock.state = .held) (hp : playing s = true)
    (hst : s.follower.stop = some st) (hk : st.kind = .end_) : settleFor (n + 1) s = enterEnding s s.clock.x0 := by
  rw [settleFor, hh, hp, hst]
  dsimp only
  rw [hk]

theorem settleFor_wait {s : State} {st : StopPoint} {j : EntryNo} (n : Nat) (hh : s.clock.state = .held) (hp : playing s = true)
    (hst : s.follower.stop = some st) (hk : st.kind = .wait) (hj : nextIndex s = some j) :
    settleFor (n + 1) s = settleFor n (enterEntry s j s.clock.x0) := by
  rw [settleFor, hh, hp, hst]
  dsimp only
  rw [hk, hj]

theorem phraseEnd_congr {s t : State} (hf : t.follower = s.follower) (hs : t.store = s.store) (ht : t.tables = s.tables) :
    phraseEnd t = phraseEnd s := by
  have hp : ∀ i, planEntry t i = planEntry s i := fun i => by rw [planEntry, ht]; rfl
  have hr : ∀ i, readable t i = readable s i := fun i => by rw [readable, readable, hp, listLocked, hf]; rfl
  rw [phraseEnd, phraseEnd, hf]
  cases s.follower.current with
  | none => rfl
  | some i =>
    dsimp only
    rw [hr, hp, phraseLength, phraseLength, hs]

theorem involved_congr {s t : State} (h : t.ctl = s.ctl) (l : ListNo) : involved t l = involved s l := by
  rw [involved, involved, involvedLists, involvedLists, h]

/-- A hold entered for a current entry. -/
theorem enterHolding_spec {s : State} {i : EntryNo} (hc : s.follower.current = some i) (x : Pos) :
    (enterHolding s x).follower = { s.follower with
        play := .holding, stop := some { pos := x, kind := .hold, reachedAt := some s.partTime }
        timer := some (after s.partTime (((planEntry s i).hold * s.clock.period : Nat) : Int)) } ∧
      (s.handler.alerts.length < 16 →
        .hold (some i) ((x - s.follower.origin) / 256) s.partTime ∈ (enterHolding s x).handler.alerts) := by
  constructor
  · simp [enterHolding, beatsSpan, hc]
  · intro hroom
    rw [enterHolding, postAlert_of_room (by exact hroom), hc]
    exact List.mem_append_right _ List.mem_cons_self

theorem endBehind_none {s : State} (h : s.follower.next = none ∨ ∀ e, phraseEnd s = some e → s.clock.x0 ≤ e) : endBehind s = none := by
  unfold endBehind
  split
  · rename_i e i g he hi hg
    rcases h with h | h
    · rw [h] at hg; cases hg
    · exact if_neg (not_lt.mpr (h e he))
  · rfl

/-- The tempo of an entry that becomes current at its stop point is applied there. -/
theorem entered_clock_at_stop {s : State} {j : EntryNo} (hh : s.clock.state = .held)
    (hs : s.follower.stop.map StopPoint.pos = some s.clock.x0) (hle : s.clock.x0 ≤ s.clock.highest) : (entered s j).clock =
      match (planEntry s j).tempo with
      | none => s.clock
      | some p => { s.clock with t0 := s.partTime, period := clampPeriod s p, pendingTempo := none } := by
  have hp : planEntry (makeCurrent s j) j = planEntry s j := by simp [planEntry]
  cases ht : (planEntry s j).tempo with
  | none => rw [entered_of_no_tempo ht]; simp
  | some p =>
    let v := (makeCurrent s j).withClock { s.clock with pendingTempo := none }
    have hv : (makeCurrent s j).withClock { (makeCurrent s j).clock with pendingTempo := none } = v := by simp [v]
    have hperiod : clampPeriod (makeCurrent s j) p = clampPeriod s p := by simp [clampPeriod]
    have htime : v.partTime = s.partTime := by simp [v]
    rw [entered, applyEntryTempo, hp, ht]
    dsimp only
    rw [hv, hperiod, changePeriod_held (s := v) hh rfl hs, raiseHighest_of_le (by exact hle), htime]
    rfl

/-! ### A pending tempo applied at the boundary -/

/-- The line a pending tempo begins at the next boundary. -/
def tempoLine (s : State) (p : Nat) : Clock :=
  { s.clock with t0 := reachTime s (nextBoundary s), x0 := nextBoundary s, period := clampPeriod s p, pendingTempo := none }

/-- The boundaries above the next one that a rise to `x` passes. -/
def furtherBeats (s : State) (x : Pos) : Nat :=
  ((x - s.follower.origin) / 24576 - (nextBoundary s - s.follower.origin) / 24576).toNat

/-- The boundary counted and the pending tempo taken up, before its line is installed. -/
def tempoTaken (s : State) : State := (counted s).withClock { (counted s).clock with pendingTempo := none }

theorem tempoTaken_clock (s : State) : (tempoTaken s).clock =
    { s.clock with highest := nextBoundary s, beats := s.clock.beats + 1#32, pendingTempo := none } := by
  change ({ (counted s).clock with pendingTempo := none } : Clock) = _
  rw [counted_clock]

theorem tempoTaken_follower (s : State) : (tempoTaken s).follower = s.follower := by simp [tempoTaken, counted]

theorem tempoTaken_partTime (s : State) : (tempoTaken s).partTime = s.partTime := by simp [tempoTaken, counted]

theorem position_tempoTaken (s : State) : position (tempoTaken s) = position s := by
  rw [position, position, tempoTaken_follower, tempoTaken_partTime, tempoTaken_clock]
  rfl

theorem rawAt_tempoTaken (s : State) (p : Nat) : rawAt { (tempoTaken s).clock with
    t0 := reachTime s (nextBoundary s), x0 := nextBoundary s, period := clampPeriod s p } (tempoTaken s).partTime =
      rawAt (tempoLine s p) s.partTime := by
  rw [tempoTaken_partTime]
  rfl

theorem crossings_from_boundary {s u : State} (hf : u.follower = s.follower) (hh : u.clock.highest = nextBoundary s) {x : Pos}
    (hx : nextBoundary s ≤ x) : crossings u x = furtherBeats s x := by
  unfold crossings beatIndex furtherBeats
  rw [hf, hh]
  rcases hx.lt_or_eq with h | h
  · rw [if_pos h]
    rfl
  · rw [← h, if_neg (lt_irrefl _)]
    simp

/-- Below the stop point the clock runs on the new line, the highest position on both lines. -/
theorem crossBoundary_runs {s : State} {p : Nat} (hm : s.clock.state = .moving) (hp : s.clock.pendingTempo = some p)
    (hb : nextBoundary s ≤ position s) (hs : ∀ st, s.follower.stop = some st → rawAt (tempoLine s p) s.partTime < st.pos) :
    let x := max (position s) (rawAt (tempoLine s p) s.partTime)
    (crossBoundary s).clock = { tempoLine s p with
        highest := x, beats := s.clock.beats + 1#32 + BitVec.ofNat 32 (furtherBeats s x) } ∧
      (furtherBeats s x = 0 → (crossBoundary s).handler = (counted s).handler) := by
  intro x
  have line := reanchor_runs (s := tempoTaken s) rfl (rawAt_tempoTaken s p) (by rw [tempoTaken_follower]; exact hs)
  rw [position_tempoTaken, tempoTaken_partTime] at line
  let w := (tempoTaken s).withClock { (tempoTaken s).clock with
    state := .moving, t0 := reachTime s (nextBoundary s), x0 := nextBoundary s, period := clampPeriod s p }
  have hw : w.clock = { tempoLine s p with highest := nextBoundary s, beats := s.clock.beats + 1#32 } := by
    change ({ (tempoTaken s).clock with state := .moving, t0 := _, x0 := _, period := _ } : Clock) = _
    rw [tempoTaken_clock, tempoLine, hm]
  have hcross : crossings w x = furtherBeats s x :=
    crossings_from_boundary (u := w) (tempoTaken_follower s) (by rw [hw]) (hb.trans (le_max_left _ _))
  rw [crossBoundary_of_tempo hp]
  change (reanchor (tempoTaken s) _ _ _).clock = _ ∧ (_ → (reanchor (tempoTaken s) _ _ _).handler = _)
  rw [line]
  refine ⟨?_, fun hzero => raiseHighest_handler_of_none (s := w) (hcross.trans hzero) _⟩
  rw [raiseHighest_clock]
  change ({ w.clock with highest := max w.clock.highest x, beats := w.clock.beats + BitVec.ofNat 32 (crossings w x) } : Clock) = _
  rw [hcross, hw, max_eq_right (hb.trans (le_max_left _ _))]

/-- At or beyond the stop point the new line leaves the clock HELD there. -/
theorem crossBoundary_holds {s : State} {p : Nat} {st : StopPoint} (hm : s.clock.state = .moving) (hp : s.clock.pendingTempo = some p)
    (hb : nextBoundary s ≤ position s) (hst : s.follower.stop = some st) (hle : st.pos ≤ rawAt (tempoLine s p) s.partTime) :
    (crossBoundary s).clock = { tempoLine s p with
        state := .held, t0 := s.partTime, x0 := st.pos
        highest := st.pos, beats := s.clock.beats + 1#32 + BitVec.ofNat 32 (furtherBeats s st.pos) } ∧
      (furtherBeats s st.pos = 0 → (crossBoundary s).handler = (counted s).handler) := by
  have hbound : nextBoundary s ≤ st.pos := hb.trans (position_le_stop hm hst)
  have line := reanchor_holds (s := tempoTaken s) (ta := reachTime s (nextBoundary s)) (xa := nextBoundary s) (p := clampPeriod s p)
    rfl (by rw [tempoTaken_follower]; exact hst) (by rw [rawAt_tempoTaken]; exact hle)
  rw [position_tempoTaken, tempoTaken_partTime, max_eq_right (position_le_stop hm hst)] at line
  let w := (tempoTaken s).withClock { (tempoTaken s).clock with state := .held, t0 := s.partTime, x0 := st.pos, period := clampPeriod s p }
  have hw : w.clock = { tempoLine s p with
      state := .held, t0 := s.partTime, x0 := st.pos, highest := nextBoundary s, beats := s.clock.beats + 1#32 } := by
    change ({ (tempoTaken s).clock with state := .held, t0 := _, x0 := _, period := _ } : Clock) = _
    rw [tempoTaken_clock, tempoLine]
  have hcross : crossings w st.pos = furtherBeats s st.pos :=
    crossings_from_boundary (u := w) (tempoTaken_follower s) (by rw [hw]) hbound
  rw [crossBoundary_of_tempo hp]
  change (reanchor (tempoTaken s) _ _ _).clock = _ ∧ (_ → (reanchor (tempoTaken s) _ _ _).handler = _)
  rw [line]
  refine ⟨?_, fun hzero => raiseHighest_handler_of_none (s := w) (hcross.trans hzero) _⟩
  rw [raiseHighest_clock]
  change ({ w.clock with highest := max w.clock.highest st.pos, beats := w.clock.beats + BitVec.ofNat 32 (crossings w st.pos) } : Clock) = _
  rw [hcross, hw, max_eq_right hbound]

/-! ### The rows -/

theorem exec_beatBoundary {s : State} (hr : s.relay.resetting = false) (hm : s.clock.state = .moving)
    (hb : nextBoundary s ≤ position s) : exec .beatBoundary s = .next (settle (crossBoundary s)) :=
  exec_of_due (act := settle (crossBoundary s)) rfl (by rw [boundaryDue, hm]; exact decide_eq_true hb) hr

theorem exec_stopPointReached {s : State} (hr : s.relay.resetting = false) (hm : s.clock.state = .moving) {st : StopPoint}
    (hst : s.follower.stop = some st) (hle : st.pos ≤ rawAt s.clock s.partTime) :
    exec .stopPointReached s = .next (settle (holdClock s st.pos)) := by
  have h := exec_of_due (act := reachStop s) (row := .stopPointReached) rfl (by rw [stopDue, hm, hst]; exact decide_eq_true hle) hr
  rwa [reachStop, hst] at h

/-- Settles O44: the boundary counted with and without a pending tempo, and the stop point by its kind. -/
theorem boundariesAreCountedAndStopPointsHold : Obligations.BoundariesAreCountedAndStopPointsHold := by
  unfold Obligations.BoundariesAreCountedAndStopPointsHold
  refine fun s hr hm => ⟨?boundary, fun st hst hle hplay => ?stop⟩
  case boundary =>
    intro b alert alerts hb
    refine ⟨crossBoundary s, exec_beatBoundary hr hm hb, (evolves_crossBoundary s).sameScoreAndTables (by simp), by simp, by simp,
      by simp, by simp, fun hmv => settle_of_not_held (by rw [hmv]; nofun), fun hn => ?plain, fun p hp => ?tempo⟩
    case plain =>
      have plain : crossBoundary s = counted s := crossBoundary_of_no_tempo hn
      rw [plain]
      exact ⟨counted_clock s, counted_alerts⟩
    case tempo =>
      intro c y more risen
      refine ⟨fun hs => ?runs, fun st hst hle => ?holds⟩
      case runs =>
        obtain ⟨hclock, halerts⟩ := crossBoundary_runs hm hp hb hs
        exact ⟨hclock, fun hroom hzero => (congrArg Handler.alerts (halerts hzero)).trans (counted_alerts hroom)⟩
      case holds =>
        obtain ⟨hclock, halerts⟩ := crossBoundary_holds hm hp hb hst hle
        refine ⟨hclock, fun hroom hzero => (congrArg Handler.alerts (halerts hzero)).trans (counted_alerts hroom), fun hk hpl => ?_⟩
        have ends := settleFor_end (s := crossBoundary s) (st := st) 64 (by rw [hclock]) (by simpa [playing] using hpl) (by simpa using hst) hk
        rw [settle, ends]
        exact ⟨by simp, rfl⟩
  case stop =>
    intro x n held
    let u := holdClock s x
    have hclock : u.clock = held := holdClock_clock s x
    have hfol : u.follower = s.follower := by simp [u]
    have htime : u.partTime = s.partTime := by simp [u]
    have htables : u.tables = s.tables := by simp [u]
    have hstore : u.store = s.store := by simp [u]
    have hplan : ∀ i, planEntry u i = planEntry s i := fun i => by rw [planEntry, htables]; rfl
    have hheld : u.clock.state = .held := by rw [hclock]
    have hx0 : u.clock.x0 = x := by rw [hclock]
    have hst' : u.follower.stop = some st := by rw [hfol]; exact hst
    have hpl : playing u = true := by
      unfold playing
      rw [hfol]
      rcases hplay with h | h <;> rw [h] <;> rfl
    have hnext : nextIndex u = nextIndex s := by rw [nextIndex, nextIndex, hfol, htables]
    have evolves : Evolves s (settle u) := (evolves_holdClock s x).trans (evolves_settle u)
    have hle' : u.clock.x0 ≤ u.clock.highest := by rw [hx0, hclock]; exact le_max_right _ _
    have room : s.handler.alerts.length < 15 → u.handler.alerts.length < 16 := fun h =>
      lt_of_le_of_lt (length_holdClock (h.trans (by decide)) x) (Nat.add_lt_add_right h 1)
    refine ⟨settle u, exec_stopPointReached hr hm hst hle, fun hk hbehind => ?hold, fun hk => ?end_, fun j hk hj hn hc' hinv hpts ht hlen hdur => ?organ,
      fun j hk hj hn hc hmode hpts => ?choir⟩
    case hold =>
      have behind : endBehind u = none := by
        refine endBehind_none (hbehind.imp (fun h => by rw [hfol]; exact h) fun h e he => ?_)
        rw [hx0]
        refine h e ?_
        rwa [phraseEnd_congr hfol hstore htables] at he
      have holding : settle u = enterHolding u u.clock.x0 := settleFor_hold 64 hheld hpl hst' hk behind
      refine ⟨evolves.sameScoreAndTables (by simp [u]), by rw [holding]; simp [u], by rw [holding]; simpa using hclock, fun i hc => ?_⟩
      have hcur : u.follower.current = some i := by rw [hfol]; exact hc
      obtain ⟨hf, halert⟩ := enterHolding_spec hcur u.clock.x0
      rw [holding, hf, hclock, hfol, hplan, htime]
      refine ⟨rfl, fun hroom => ?_⟩
      have hroom' := room hroom
      have := halert hroom'
      rwa [hx0, hfol, htime] at this
    case end_ =>
      have ends : settle u = enterEnding u u.clock.x0 := settleFor_end 64 hheld hpl hst' hk
      refine ⟨evolves.sameScoreAndTables (by simp [u]), by rw [ends]; simp [u], by rw [ends]; simpa using hclock, ?_⟩
      rw [ends, enterEnding, hfol, hx0, htime]
      rfl
    case organ =>
      intro o
      have waits : settle u = settleFor 64 (enterEntry u j u.clock.x0) := settleFor_wait 64 hheld hpl hst' hk (by rw [hnext]; exact hj)
      have horigin : nextOrigin u j u.clock.x0 = o := by rw [nextOrigin, hfol, hn, hx0, hplan]
      have hinv' : involved u (planEntry u j).list = false := by rw [hplan, involved_congr (s := s) (holdClock_keeps s x).2.2.2.1]; exact hinv
      obtain ⟨hcur, hnone, ho, hp, htimer, hc, hphrase⟩ := enterEntry_runs_spec 64 (s := u) (j := j)
        (.inr ⟨hinv', by rw [hasPoints_congr hstore htables]; exact hpts⟩) hheld hle'
        (by rw [horigin, hx0]; exact le_add_of_nonneg_right (gapOf_nonneg _)) (by rw [hplan]; exact ht)
        (by rw [phraseLength, hstore, hplan]; exact hlen) fun n => by rw [stepRec, hstore]; exact hdur n
      rw [← waits] at hcur hnone ho hp htimer hc hphrase
      rw [horigin, hx0] at hp
      rw [horigin] at ho
      refine ⟨hcur, hnone, ho, htimer, hp, by rw [hc, hclock, htime], fun hroom => ?_⟩
      have hroom' := room hroom
      have := hphrase hroom'
      rwa [hplan, htime, hc'] at this
    case choir =>
      have waits : settle u = settleFor 64 (enterEntry u j u.clock.x0) := settleFor_wait 64 hheld hpl hst' hk (by rw [hnext]; exact hj)
      have starts : ChoirStarts u j := ⟨by rw [hfol]; exact hn, by rw [hplan]; exact hc, by rw [hfol]; exact hmode⟩
      obtain ⟨hcur, hnone, hp, hck, hs, htimer, horigin, hwin⟩ := enterEntry_waits_spec 64 starts (by rw [hasPoints_congr hstore htables]; exact hpts) u.clock.x0
      have hent := entered_clock_at_stop (j := j) hheld (by rw [hst', hx0]; rfl) hle'
      rw [← waits] at hcur hnone hp hck hs htimer horigin hwin
      rw [hplan] at htimer hent
      rw [hx0, htime] at hs
      rw [htime] at htimer
      refine ⟨evolves.sameScoreAndTables (by simp [u]), ?_, hp, hcur, hnone, by rw [horigin, hfol], by rw [hwin, hfol], hs, htimer⟩
      rw [hck, hent, hx0, htime]
      have hclamp : clampPeriod u = clampPeriod s := funext fun q => by rw [clampPeriod, clampPeriod, htables]
      cases (planEntry s j).tempo with
      | none => rw [hclock]
      | some p => rw [hclock, hclamp]

end Machine

end Sys2Proof
end

section
/-! PROOF. The window list (O46): what a rise of the confidence counter leaves, the points the walk opens, those the position passes, and
the point an onset matches. -/

namespace Sys2Proof

namespace Machine

set_option Elab.async false

/-! ### A rise of the counter (R110 to R112) -/

theorem confRise_of_lost {s : State} (h : s.follower.conf = .lost) (n : Nat) :
    confRise s n = s.withFollower { s.follower with run := 0 } := by
  rw [confRise, h]

theorem confRise_within {s : State} (h : s.follower.conf ≠ .lost) {n : Nat} (hn : s.follower.counter + n ≤ 255) :
    confRise s n = setConf (warnRise s s.follower.counter (s.follower.counter + n)) (s.follower.counter + n)
      (confOf (s.follower.counter + n)) s.follower.run := by
  cases hc : s.follower.conf with
  | lost => exact absurd hc h
  | locked => rw [confRise, hc]; exact if_neg (not_lt.mpr hn)
  | doubtful => rw [confRise, hc]; exact if_neg (not_lt.mpr hn)

/-- The state a rise beyond 255 leaves, before the lost action. -/
def lostNow (s : State) : State := setConf (warnRise s s.follower.counter 255) 255 .lost 0

theorem confRise_beyond {s : State} (h : s.follower.conf ≠ .lost) {n : Nat} (hn : 255 < s.follower.counter + n) :
    confRise s n = if s.tables.follow.lostAction = .finish then finishPlay (lostNow s) else lostNow s := by
  cases hc : s.follower.conf with
  | lost => exact absurd hc h
  | locked => rw [confRise, hc]; exact if_pos hn
  | doubtful => rw [confRise, hc]; exact if_pos hn

/-- The alerts of a counter that rises from `old` to `new` and leaves the state `conf`, where `found` stood before. -/
def riseAlerts (s : State) (new : Nat) (conf : Conf) : List Alert :=
  (if s.follower.counter < s.tables.follow.warning ∧ s.tables.follow.warning ≤ new then [.warning new s.partTime] else []) ++
    (if conf = s.follower.conf then [] else [.confidence conf new s.partTime])

theorem announce_of_same {found : Conf} {s : State} (h : s.follower.conf = found) : announce found s = s := if_pos h

theorem warnRise_of_room {s : State} (hroom : s.handler.alerts.length < 16) (old new : Nat) : warnRise s old new =
    s.withHandler { s.handler with alerts := s.handler.alerts ++
      if old < s.tables.follow.warning ∧ s.tables.follow.warning ≤ new then [.warning new s.partTime] else [] } := by
  unfold warnRise
  split
  · exact postAlert_of_room hroom _
  · rw [List.append_nil]
    rfl

/-- A rise within the counter's range, its alerts posted. -/
theorem announce_confRise {s : State} (h : s.follower.conf ≠ .lost) {n : Nat} (hn : s.follower.counter + n ≤ 255)
    (hroom : s.handler.alerts.length < 15) : announce s.follower.conf (confRise s n) =
      (s.withFollower { s.follower with counter := s.follower.counter + n, conf := confOf (s.follower.counter + n) }).withHandler
        { s.handler with alerts := s.handler.alerts ++ riseAlerts s (s.follower.counter + n) (confOf (s.follower.counter + n)) } := by
  rw [confRise_within h hn, warnRise_of_room (by omega), announce, riseAlerts, ← List.append_assoc]
  generalize hw : (if s.follower.counter < s.tables.follow.warning ∧ s.tables.follow.warning ≤ s.follower.counter + n then
    [Alert.warning (s.follower.counter + n) s.partTime] else []) = w
  have hlen : w.length ≤ 1 := by rw [← hw]; split <;> simp
  split
  · rename_i hsame
    have hsame : confOf (s.follower.counter + n) = s.follower.conf := hsame
    rw [if_pos hsame, List.append_nil]
    rfl
  · rename_i hdiff
    have hdiff : ¬confOf (s.follower.counter + n) = s.follower.conf := hdiff
    rw [if_neg hdiff, postAlert_of_room]
    · rfl
    · change (s.handler.alerts ++ w).length < 16
      rw [List.length_append]
      omega

/-- Within its range a rise writes counter and confidence, and leaves the run. -/
theorem announce_confRise_follower {s : State} (h : s.follower.conf ≠ .lost) {n : Nat} (hn : s.follower.counter + n ≤ 255) (found : Conf) :
    (announce found (confRise s n)).follower =
      { s.follower with counter := s.follower.counter + n, conf := confOf (s.follower.counter + n) } := by
  have hf : (warnRise s s.follower.counter (s.follower.counter + n)).follower = s.follower := by simp
  rw [confRise_within h hn]
  have : (announce found (setConf (warnRise s s.follower.counter (s.follower.counter + n)) (s.follower.counter + n)
    (confOf (s.follower.counter + n)) s.follower.run)).follower = (setConf (warnRise s s.follower.counter (s.follower.counter + n))
      (s.follower.counter + n) (confOf (s.follower.counter + n)) s.follower.run).follower := by simp
  rw [this, setConf, hf]
  rfl

/-- The follower of a LOST state just entered. -/
theorem lostNow_follower (s : State) : (lostNow s).follower = { s.follower with counter := 255, conf := .lost, run := 0 } := by
  have hf : (warnRise s s.follower.counter 255).follower = s.follower := by simp
  rw [lostNow, setConf, hf]
  rfl

/-- A FINISH not yet taken, in GAP, RUNNING or HOLDING. -/
theorem finishPlay_finish {s : State} (hp : playing s = true ∨ s.follower.play = .holding) (hf : s.follower.finish = .none) :
    (finishPlay s).follower = { s.follower with
      finish := if s.follower.next.isSome then .held else .pending, stop := (finishPlay s).follower.stop } := by
  have hor : s.follower.play = .gap ∨ s.follower.play = .running ∨ s.follower.play = .holding := by
    rcases hp with h | h
    · unfold playing at h
      rcases Bool.or_eq_true_iff.mp h with h | h
      · exact .inr (.inl (of_decide_eq_true h))
      · exact .inl (of_decide_eq_true h)
    · exact .inr (.inr h)
  rw [finishPlay_of_playing hor, if_neg (not_not.mpr hf), formStop_follower]
  rfl

/-- A rise beyond 255, outside a wait: LOST, and with the lost action FINISH the finish state. -/
theorem confRise_beyond_follower {s : State} (h : s.follower.conf ≠ .lost) {n : Nat} (hn : 255 < s.follower.counter + n)
    (hp : playing s = true ∨ s.follower.play = .holding) :
    let t := confRise s n
    t.follower = { s.follower with
        counter := 255, conf := .lost, run := 0, finish := t.follower.finish, stop := t.follower.stop } ∧
      (s.tables.follow.lostAction = .finish → s.follower.finish = .none →
        t.follower.finish = if s.follower.next.isSome then .held else .pending) ∧
      (s.tables.follow.lostAction = .coast → t = lostNow s) := by
  intro t
  have hlost := lostNow_follower s
  have hp' : playing (lostNow s) = true ∨ (lostNow s).follower.play = .holding := by
    rw [playing, hlost]
    exact hp
  have ht : t = if s.tables.follow.lostAction = .finish then finishPlay (lostNow s) else lostNow s := confRise_beyond h hn
  rw [ht]
  split
  · rename_i hf
    by_cases hfin : s.follower.finish = .none
    · have hfollower := finishPlay_finish hp' (by rw [hlost]; exact hfin)
      rw [hfollower, hlost]
      exact ⟨rfl, fun _ _ => rfl, fun hc => absurd (hf.symm.trans hc) (by decide)⟩
    · have hplay : (lostNow s).follower.play ≠ .waiting := by
        rcases hp' with h | h
        · intro hw; rw [playing, hw] at h; cases h
        · rw [h]; decide
      rw [finishPlay_of_taken hplay (by rw [hlost]; exact hfin), hlost]
      exact ⟨rfl, fun _ h => absurd h hfin, fun _ => rfl⟩
  · rename_i hf
    rw [hlost]
    exact ⟨rfl, fun h => absurd h hf, fun _ => rfl⟩

/-! ### The point walk (R105) -/

theorem mem_pointsFrom {s : State} {i : EntryNo} {o : Pos} {t0 : Nat} {p : Point} (h : p ∈ pointsFrom s i o t0) :
    p.entry = i ∧ ∃ t : Nat, t0 ≤ t ∧ p.pos = o + (t : Int) * 256 := by
  obtain ⟨x, hx, rfl⟩ := List.mem_map.mp h
  obtain ⟨t, ht, hxt⟩ := List.mem_flatMap.mp hx
  obtain rfl := List.mem_singleton.mp hxt
  obtain ⟨n, hn, hnt⟩ := List.mem_map.mp (List.mem_eraseDups.mp ht)
  obtain ⟨-, hkept⟩ := List.mem_filter.mp hn
  obtain ⟨-, hfrom⟩ := Bool.and_eq_true_iff.mp hkept
  exact ⟨rfl, t, hnt ▸ of_decide_eq_true hfrom, rfl⟩

theorem mem_currentPoints {s : State} {p : Point} (h : p ∈ currentPoints s) :
    s.follower.current = some p.entry ∧ ∃ t0 t : Nat, s.follower.pointsCurrent = some t0 ∧ t0 ≤ t ∧
      p.pos = s.follower.origin + (t : Int) * 256 := by
  unfold currentPoints at h
  split at h
  · rename_i i t0 hc ht
    split at h
    · obtain ⟨he, t, hle, hpos⟩ := mem_pointsFrom h
      exact ⟨by rw [hc, he], t0, t, ht, hle, hpos⟩
    · cases h
  · cases h

theorem mem_nextPoints {s : State} {p : Point} (h : p ∈ nextPoints s) :
    engagedIndex s = some p.entry ∧ ∃ (g : Engaged) (t0 t : Nat), s.follower.next = some g ∧ s.follower.pointsNext = some t0 ∧ t0 ≤ t ∧
      p.pos = g.origin + (t : Int) * 256 := by
  unfold nextPoints at h
  split at h
  · rename_i i g t0 hi hg ht
    split at h
    · obtain ⟨he, t, hle, hpos⟩ := mem_pointsFrom h
      exact ⟨by rw [hi, he], g, t0, t, hg, ht, hle, hpos⟩
    · cases h
  · cases h

/-- The engaged next entry is not the current one. -/
theorem engagedIndex_ne {s : State} {i : EntryNo} (h : engagedIndex s = some i) : s.follower.current ≠ some i := by
  intro hc
  unfold engagedIndex at h
  rw [hc] at h
  split at h
  · rename_i c e h1 h2
    obtain rfl := Option.some.inj h1
    unfold entryNo? at h
    split at h
    · have := congrArg Fin.val (Option.some.inj h)
      simp at this
    · cases h
  · cases h

theorem onset_of_pos {o x : Pos} {t : Nat} (h : x = o + (t : Int) * 256) : ((x - o) / 256 + 1).toNat = t + 1 := by
  rw [h, add_sub_cancel_left, Int.mul_ediv_cancel _ (by norm_num)]
  omega

theorem walkPast_current {s : State} {p : Point} (h : s.follower.current = some p.entry) : walkPast s p =
    s.withFollower { s.follower with
      pointsCurrent := some (max (s.follower.pointsCurrent.getD 0) (((p.pos - s.follower.origin) / 256 + 1).toNat)) } := if_pos h

theorem walkPast_next {s : State} {p : Point} {g : Engaged} (h : s.follower.current ≠ some p.entry) (hg : s.follower.next = some g) :
    walkPast s p = s.withFollower { s.follower with
      pointsNext := some (max (s.follower.pointsNext.getD 0) (((p.pos - g.origin) / 256 + 1).toNat)) } := by
  refine (if_neg h).trans ?_
  rw [hg]
  rfl

/-- The walk moves on, and nothing else of the follower does. -/
theorem walkPast_spec (s : State) (p : Point) : walkPast s p = s.withFollower { s.follower with
    pointsCurrent := (walkPast s p).follower.pointsCurrent, pointsNext := (walkPast s p).follower.pointsNext } := by
  unfold walkPast
  dsimp only
  split
  · rfl
  · split <;> rfl

/-- A point the walk has passed is reached no more. -/
theorem not_mem_walkPast {s : State} {p : Point} (h : p ∈ remainingPoints s) : p ∉ remainingPoints (walkPast s p) := by
  intro hmem
  rcases List.mem_append.mp h with h | h
  · obtain ⟨hc, t0, t, ht0, hle, hpos⟩ := mem_currentPoints h
    rw [walkPast_current hc] at hmem
    rcases List.mem_append.mp hmem with hm | hm
    · obtain ⟨-, t1, t', ht1, hle', hpos'⟩ := mem_currentPoints hm
      have h1 : t1 = max (s.follower.pointsCurrent.getD 0) (t + 1) := by
        rw [← onset_of_pos hpos]; exact (Option.some.inj ht1).symm
      have h2 : (t : Int) * 256 = (t' : Int) * 256 := by
        have hpos' : p.pos = s.follower.origin + (t' : Int) * 256 := hpos'
        linarith
      have := le_max_right (s.follower.pointsCurrent.getD 0) (t + 1)
      omega
    · exact engagedIndex_ne (mem_nextPoints hm).1 hc
  · obtain ⟨hi, g, t0, t, hg, ht0, hle, hpos⟩ := mem_nextPoints h
    have hc := engagedIndex_ne hi
    rw [walkPast_next hc hg] at hmem
    rcases List.mem_append.mp hmem with hm | hm
    · exact hc (mem_currentPoints hm).1
    · obtain ⟨-, g', t1, t', hg', ht1, hle', hpos'⟩ := mem_nextPoints hm
      have h1 : t1 = max (s.follower.pointsNext.getD 0) (t + 1) := by
        rw [← onset_of_pos hpos]; exact (Option.some.inj ht1).symm
      have hg' : s.follower.next = some g' := hg'
      obtain rfl := Option.some.inj (hg'.symm.trans hg)
      have h2 : (t : Int) * 256 = (t' : Int) * 256 := by linarith
      have := le_max_right (s.follower.pointsNext.getD 0) (t + 1)
      omega

theorem openPoint_of_passed {s : State} {p : Point} (h : s.follower.mode = .steady ∨ passedPoint (position s) p = true) :
    openPoint s p = walkPast s p := if_pos h

/-- The window list with room for one more point. -/
def madeRoom (s : State) : List Point :=
  if s.follower.window.length < 8 then s.follower.window else removeLowest s.follower.window

theorem openPoint_of_open {s : State} {p : Point} (h : ¬(s.follower.mode = .steady ∨ passedPoint (position s) p = true)) :
    openPoint s p = (walkPast s p).withFollower { (walkPast s p).follower with
      window := insertPoint (madeRoom s) p } := if_neg h

theorem leastPos_of_ordered {x : Pos} {rest : List Pos} (h : (x :: rest).Pairwise (· ≤ ·)) : leastPos (x :: rest) = some x := by
  have hle := (List.pairwise_cons.mp h).1
  have : ∀ (l : List Pos), (∀ y ∈ l, x ≤ y) → l.foldl min x = x := by
    intro l
    induction l with
    | nil => intro _; rfl
    | cons y l ih =>
      intro hl
      rw [List.foldl_cons, min_eq_left (hl y List.mem_cons_self)]
      exact ih fun z hz => hl z (List.mem_cons_of_mem _ hz)
  exact congrArg some (this rest hle)

/-- In a window list in position order the lowest point is the first. -/
theorem removeLowest_of_ordered {q : Point} {rest : List Point} (h : (q :: rest).Pairwise fun a b => a.pos ≤ b.pos) :
    removeLowest (q :: rest) = rest := by
  have hl : leastPos ((q :: rest).map Point.pos) = some q.pos := leastPos_of_ordered (h.map Point.pos fun _ _ hab => hab)
  have hf : (q :: rest).find? (fun p => decide (p.pos = q.pos)) = some q := List.find?_cons_of_pos (decide_eq_true rfl)
  unfold removeLowest
  rw [hl]
  dsimp only
  rw [hf]
  exact List.erase_cons_head q rest

/-! ### The point an onset matches (R108) -/

/-- Point `p` is at least as near to `x` as `q`, and not above it when both are equally near. -/
def NearOrEqual (x : Pos) (p q : Point) : Prop :=
  (p.pos - x).natAbs < (q.pos - x).natAbs ∨ ((p.pos - x).natAbs = (q.pos - x).natAbs ∧ p.pos ≤ q.pos)

theorem NearOrEqual.refl (x : Pos) (p : Point) : NearOrEqual x p p := .inr ⟨rfl, le_rfl⟩

theorem NearOrEqual.trans {x : Pos} {p q r : Point} (h1 : NearOrEqual x p q) (h2 : NearOrEqual x q r) : NearOrEqual x p r := by
  rcases h1 with h1 | ⟨h1, h1'⟩
  · rcases h2 with h2 | ⟨h2, -⟩
    · exact .inl (h1.trans h2)
    · exact .inl (h2 ▸ h1)
  · rcases h2 with h2 | ⟨h2, h2'⟩
    · exact .inl (h1 ▸ h2)
    · exact .inr ⟨h1.trans h2, h1'.trans h2'⟩

/-- The nearer of two points is one of them, and as near as either. -/
theorem nearer_spec (x : Pos) (p q : Point) :
    (nearer x p q = p ∨ nearer x p q = q) ∧ NearOrEqual x (nearer x p q) p ∧ NearOrEqual x (nearer x p q) q := by
  unfold nearer
  split
  · rename_i h
    exact ⟨.inl rfl, .refl x p, .inl (Nat.compare_eq_lt.mp h)⟩
  · rename_i h
    exact ⟨.inr rfl, .inl (Nat.compare_eq_gt.mp h), .refl x q⟩
  · rename_i h
    have h := Nat.compare_eq_eq.mp h
    split
    · rename_i hle
      exact ⟨.inl rfl, .refl x p, .inr ⟨h, hle⟩⟩
    · rename_i hle
      exact ⟨.inr rfl, .inr ⟨h.symm, (not_le.mp hle).le⟩, .refl x q⟩

theorem foldl_nearer (x : Pos) (rest : List Point) (p : Point) :
    rest.foldl (nearer x) p ∈ p :: rest ∧ ∀ q ∈ p :: rest, NearOrEqual x (rest.foldl (nearer x) p) q := by
  induction rest generalizing p with
  | nil => exact ⟨List.mem_cons_self, fun q hq => List.mem_singleton.mp hq ▸ .refl x _⟩
  | cons r rest ih =>
    obtain ⟨hone, hp, hr⟩ := nearer_spec x p r
    obtain ⟨hmem, hnear⟩ := ih (nearer x p r)
    rw [List.foldl_cons]
    refine ⟨?_, fun q hq => ?_⟩
    · rcases List.mem_cons.mp hmem with h | h
      · rw [h]
        rcases hone with h1 | h1
        · rw [h1]; exact List.mem_cons_self
        · rw [h1]; exact List.mem_cons_of_mem _ List.mem_cons_self
      · exact List.mem_cons_of_mem _ (List.mem_cons_of_mem _ h)
    · have hbest := hnear _ List.mem_cons_self
      rcases List.mem_cons.mp hq with rfl | hq
      · exact hbest.trans hp
      · rcases List.mem_cons.mp hq with rfl | hq
        · exact hbest.trans hr
        · exact hnear q (List.mem_cons_of_mem _ hq)

/-- The window of an open point holds position `x`. -/
def Holding (s : State) (x : Pos) (q : Point) : Prop :=
  q ∈ s.follower.window ∧ q.pos - (q.width : Int) * 256 ≤ x ∧ x ≤ q.pos + (q.width : Int) * 256

theorem matchFor_spec (s : State) (x : Pos) : (matchFor s x = none ↔ ∀ q, ¬Holding s x q) ∧
    ∀ p, matchFor s x = some p → Holding s x p ∧ ∀ q, Holding s x q → NearOrEqual x p q := by
  have hmem : ∀ q, q ∈ s.follower.window.filter (fun p => decide (p.pos - widthOf p ≤ x) && decide (x ≤ p.pos + widthOf p)) ↔
      Holding s x q := fun q => by
    simp only [List.mem_filter, Bool.and_eq_true, decide_eq_true_eq]
    rfl
  unfold matchFor
  cases hl : s.follower.window.filter fun p => decide (p.pos - widthOf p ≤ x) && decide (x ≤ p.pos + widthOf p) with
  | nil =>
    have hnone (q : Point) (hq : Holding s x q) : False := by
      have := (hmem q).mpr hq
      rw [hl] at this
      cases this
    exact ⟨⟨fun _ => hnone, fun _ => rfl⟩, nofun⟩
  | cons r rest =>
    obtain ⟨hin, hnear⟩ := foldl_nearer x rest r
    refine ⟨⟨nofun, fun h => absurd ((hmem r).mp (by rw [hl]; exact List.mem_cons_self)) (h r)⟩, fun p hp => ?_⟩
    obtain rfl := Option.some.inj hp
    exact ⟨(hmem _).mp (by rw [hl]; exact hin), fun q hq => hnear q (by rw [← hl]; exact (hmem q).mpr hq)⟩

/-! ### The rows -/

/-- Point `p` of the window list closes as a miss. -/
def pointGone (s : State) (p : Point) : State := s.withFollower { s.follower with window := s.follower.window.erase p }

/-- Settles O46: the point opened, the point closed as a miss, the point matched. -/
theorem windowPointsOpenCloseAndMatch : Obligations.WindowPointsOpenCloseAndMatch := by
  unfold Obligations.WindowPointsOpenCloseAndMatch
  refine ⟨fun s p hr hp hhead hpos => ?opens, fun s p hr hp hfind => ?closes, matchFor_spec⟩
  case opens =>
    have hmem : p ∈ remainingPoints s := List.mem_of_mem_head? hhead
    have hreached : pointOpenDue s = some p := by
      rw [pointOpenDue, hp, reachedPoint]
      cases hl : remainingPoints s with
      | nil => rw [hl] at hhead; cases hhead
      | cons q rest =>
        rw [hl] at hhead
        obtain rfl := Option.some.inj hhead
        exact if_pos hpos
    have hexec : exec .pointOpen s = .next (openPoint s p) := by
      have h := exec_of_due (act := openDue s) (row := .pointOpen) rfl (by rw [hreached]; rfl) hr
      rwa [openDue, hreached] at h
    have hwalk := walkPast_spec s p
    have hwindow := walkPast_window s p
    refine ⟨openPoint s p, hexec, ?_⟩
    by_cases hpass : s.follower.mode = .steady ∨ passedPoint (position s) p = true
    · rw [openPoint_of_passed hpass]
      refine ⟨by rw [hwindow]; exact hwalk, not_mem_walkPast hmem, fun _ => hwindow, fun hm hle => ?_⟩
      rcases hpass with h | h
      · exact absurd h hm
      · exact absurd (of_decide_eq_true h) (not_lt.mpr hle)
    · rw [openPoint_of_open hpass]
      refine ⟨by rw [hwalk]; rfl, not_mem_walkPast hmem, fun h => absurd (h.imp id fun hlt => decide_eq_true hlt) hpass, fun _ _ =>
        ⟨fun hlt => ?_, fun q rest hq hlen hord => ?_, fun hord => ?_⟩⟩
      · have : madeRoom s = s.follower.window := if_pos hlt
        exact this ▸ insertPoint_perm _ p
      · have : madeRoom s = rest :=
          (if_neg (by rw [hlen]; decide)).trans (by rw [hq]; exact removeLowest_of_ordered (hq ▸ hord))
        exact this ▸ insertPoint_perm _ p
      · change (insertPoint (madeRoom s) p).Pairwise _
        unfold madeRoom
        split
        · exact insertPoint_ordered hord p
        · exact insertPoint_ordered (hord.sublist (removeLowest_sublist _)) p
  case closes =>
    have hdue : pointCloseDue s = some p := by rw [pointCloseDue, hp]; exact hfind
    have hexec : exec .pointClose s = .next (announce s.follower.conf (confRise (pointGone s p) 8)) := by
      have h := exec_of_due (act := closeDue s) (row := .pointClose) rfl (by rw [hdue]; rfl) hr
      rwa [closeDue, hdue] at h
    have evolves : Evolves s (announce s.follower.conf (confRise (pointGone s p) 8)) :=
      (evolves_erasePoint s p).trans ((evolves_confRise _ _).trans (evolves_announce _ _))
    have hfol : (announce s.follower.conf (confRise (pointGone s p) 8)).follower = (confRise (pointGone s p) 8).follower := by simp
    have hlost (hl : s.follower.conf = .lost) : confRise (pointGone s p) 8 =
        (pointGone s p).withFollower { (pointGone s p).follower with run := 0 } := confRise_of_lost (s := pointGone s p) hl 8
    have hwithin (hl : s.follower.conf ≠ .lost) (hle : s.follower.counter + 8 ≤ 255) :=
      announce_confRise_follower (s := pointGone s p) hl hle s.follower.conf
    have hbeyond (hl : s.follower.conf ≠ .lost) (hlt : 255 < s.follower.counter + 8) :=
      confRise_beyond_follower (s := pointGone s p) hl hlt (.inl hp)
    refine ⟨_, hexec, ?window, evolves.sameScoreAndTables (by simp [pointGone]), by simp [pointGone], by simp [pointGone], by simp [pointGone],
      by simp [pointGone], fun hl => ?lost, fun hl hle => ?within, fun hl hlt => ?beyond⟩
    case window =>
      by_cases hl : s.follower.conf = .lost
      · rw [hfol, hlost hl]; rfl
      · by_cases hle : s.follower.counter + 8 ≤ 255
        · rw [hwithin hl hle]; rfl
        · rw [hfol, (hbeyond hl (not_le.mp hle)).1]; rfl
    case lost =>
      rw [hlost hl, announce_of_same (by rfl)]
      exact ⟨rfl, rfl, rfl⟩
    case within =>
      have hf := hwithin hl hle
      refine ⟨by rw [hf]; rfl, by rw [hf]; rfl, by rw [hf]; rfl, fun hroom => ?_⟩
      have h := announce_confRise (s := pointGone s p) hl hle hroom
      rw [hf]
      refine (congrArg (fun u => u.handler.alerts) h).trans ?_
      exact (List.append_assoc _ _ _).symm
    case beyond =>
      obtain ⟨hf, hfinish, hcoast⟩ := hbeyond hl hlt
      rw [hfol]
      refine ⟨by rw [hf], by rw [hf], by rw [hf], hfinish, fun hc => ?_⟩
      rw [hcoast hc, lostNow_follower]
      rfl

end Machine

end Sys2Proof
end

section
/-! PROOF. States that differ in results and confidence alone: what the follower, the clock and the switches read of one, they read of the
other, so a match written before an operation may be written after it. -/

namespace Sys2Proof

namespace Machine

set_option Elab.async false

/-! ### The same music -/

/-- The two states hold the same music in the same chains, and the same tables. -/
structure SameNotes (s u : State) : Prop where
  music : ∀ n, (stepRec u n).music = (stepRec s n).music
  chain : ∀ l, chain u l = chain s l
  length : ∀ l, phraseLength u l = phraseLength s l
  tables : u.tables = s.tables

namespace SameNotes

theorem of_store {s u : State} (hs : u.store = s.store) (ht : u.tables = s.tables) : SameNotes s u where
  music n := by rw [stepRec, hs]; rfl
  chain l := by rw [Machine.chain, hs]; rfl
  length l := by rw [phraseLength, hs]; rfl
  tables := ht

theorem trans {s u v : State} (h1 : SameNotes s u) (h2 : SameNotes u v) : SameNotes s v where
  music n := (h2.music n).trans (h1.music n)
  chain l := (h2.chain l).trans (h1.chain l)
  length l := (h2.length l).trans (h1.length l)
  tables := h2.tables.trans h1.tables

variable {s u : State} (h : SameNotes s u)
include h

theorem planEntry (i : EntryNo) : planEntry u i = planEntry s i := by rw [Machine.planEntry, h.tables]; rfl

theorem clampPeriod (p : Nat) : clampPeriod u p = clampPeriod s p := by rw [Machine.clampPeriod, h.tables]; rfl

theorem entryChain (i : EntryNo) : entryChain u i = entryChain s i := by
  rw [Machine.entryChain, h.chain, h.planEntry]; rfl

theorem takesPart (i : EntryNo) (n : StepNo) : takesPart u i n = takesPart s i n := by
  rw [Machine.takesPart, h.music, h.planEntry, h.length]; rfl

theorem keyed (i : EntryNo) (n : StepNo) : keyed u i n = keyed s i n := by
  rw [Machine.keyed, h.takesPart, h.music]; rfl

theorem expected (i : EntryNo) (n : StepNo) : expected u i n = expected s i n := by
  rw [Machine.expected, h.takesPart, h.music]; rfl

theorem releasePos (i : EntryNo) (o : Pos) (n : StepNo) : releasePos u i o n = releasePos s i o n := by
  rw [Machine.releasePos, playedEnd, h.music, h.planEntry, h.length]; rfl

theorem pressPos (o : Pos) (n : StepNo) : pressPos u o n = pressPos s o n := by
  rw [Machine.pressPos, h.music]; rfl

theorem holdsOf (i : EntryNo) (o : Pos) : holdsOf u i o = holdsOf s i o := by
  unfold Machine.holdsOf
  simp only [h.entryChain, h.takesPart, h.music]
  exact List.map_congr_left fun n _ => h.releasePos i o n

theorem pointsFrom (i : EntryNo) (o : Pos) (t : Nat) : pointsFrom u i o t = pointsFrom s i o t := by
  unfold Machine.pointsFrom
  simp only [h.entryChain, h.expected, h.music, h.tables]

theorem hasPoints (i : EntryNo) : hasPoints u i = hasPoints s i := by
  unfold Machine.hasPoints
  rw [h.entryChain, show Machine.expected u i = Machine.expected s i from funext (h.expected i)]

theorem walkHead (i : EntryNo) (place : Nat) : walkHead u i place = walkHead s i place := by
  unfold Machine.walkHead
  rw [h.entryChain, show Machine.keyed u i = Machine.keyed s i from funext (h.keyed i)]

end SameNotes

theorem sameNotes_matchStep (e : Int) (s : State) (n : StepNo) : SameNotes s (matchStep e s n) := by
  unfold matchStep writeResult
  split
  · exact .of_store rfl rfl
  · refine ⟨fun k => ?_, fun _ => rfl, fun _ => rfl, rfl⟩
    by_cases hk : n = k
    · subst hk
      rw [stepRec_writeStep]
      simp
    · rw [stepRec_writeStep]
      rw [if_neg fun h => hk h.symm]

theorem sameNotes_writeMatch (s : State) (p : Point) (e : Int) : SameNotes s (writeMatch s p e) := by
  unfold writeMatch
  generalize p.steps = l
  induction l generalizing s with
  | nil => exact .of_store rfl rfl
  | cons n l ih => exact (sameNotes_matchStep e s n).trans (ih _)

/-! ### The follower but for its confidence and its open points -/

/-- A follower without its confidence and its window list. -/
def unscored (f : Follower) : Follower := { f with counter := 0, conf := .locked, run := 0, window := [] }

/-- The two states hold the same music, and their followers differ in confidence and open points alone. -/
structure SameEntries (s u : State) : Prop extends SameNotes s u where
  follower : unscored u.follower = unscored s.follower

/-- The two states differ in nothing that places an entry: only in results, confidence, open points and what waits to be sent. -/
structure Alike (s u : State) : Prop extends SameEntries s u where
  sched : u.sched = s.sched
  prot : u.prot = s.prot
  clock : u.clock = s.clock
  partTime : u.partTime = s.partTime

namespace SameEntries

section
variable {s u : State} (h : SameEntries s u)
include h

theorem field {α : Type} (g : Follower → α) : g (unscored u.follower) = g (unscored s.follower) := congrArg g h.follower

theorem play : u.follower.play = s.follower.play := h.field Follower.play
theorem mode : u.follower.mode = s.follower.mode := h.field Follower.mode
theorem current : u.follower.current = s.follower.current := h.field Follower.current
theorem origin : u.follower.origin = s.follower.origin := h.field Follower.origin
theorem next : u.follower.next = s.follower.next := h.field Follower.next
theorem finish : u.follower.finish = s.follower.finish := h.field Follower.finish
theorem stop : u.follower.stop = s.follower.stop := h.field Follower.stop
theorem released : u.follower.released = s.follower.released := h.field Follower.released
theorem lockSet : u.follower.lockSet = s.follower.lockSet := h.field Follower.lockSet
theorem pointsCurrent : u.follower.pointsCurrent = s.follower.pointsCurrent := h.field Follower.pointsCurrent
theorem pointsNext : u.follower.pointsNext = s.follower.pointsNext := h.field Follower.pointsNext

theorem playing : playing u = playing s := by rw [Machine.playing, h.play]; rfl

theorem readable (i : EntryNo) : readable u i = readable s i := by
  rw [Machine.readable, listLocked, h.lockSet, h.planEntry]; rfl

theorem engagedIndex : engagedIndex u = engagedIndex s := by
  rw [Machine.engagedIndex, h.current, h.next]; rfl

theorem phraseEnd : phraseEnd u = phraseEnd s := by
  unfold Machine.phraseEnd
  rw [h.current, h.origin]
  simp only [h.readable, h.planEntry, h.length]

theorem nextIndex : nextIndex u = nextIndex s := by
  rw [Machine.nextIndex, h.current, h.finish, h.tables]; rfl

theorem currentPoints : currentPoints u = currentPoints s := by
  unfold Machine.currentPoints
  rw [h.current, h.pointsCurrent, h.origin]
  simp only [h.readable, h.pointsFrom]

theorem nextPoints : nextPoints u = nextPoints s := by
  unfold Machine.nextPoints
  rw [h.engagedIndex, h.next, h.pointsNext]
  simp only [h.readable, h.pointsFrom]

theorem remainingPoints : remainingPoints u = remainingPoints s := by
  rw [Machine.remainingPoints, h.currentPoints, h.nextPoints]; rfl

theorem openHolds (x : Pos) : openHolds u x = openHolds s x := by
  unfold Machine.openHolds
  rw [h.current, h.origin, h.engagedIndex, h.next, h.released]
  simp only [h.readable, h.holdsOf]

theorem originOf (i : EntryNo) : originOf u i = originOf s i := by
  unfold Machine.originOf
  rw [h.current, h.origin, h.next]

theorem startKind (e : PlanEntry) : startKind u e = startKind s e := startKind_congr h.mode e

theorem catchPartHead (d : Division) (lift : Pos) (p : CatchPart) : catchPartHead u d lift p = catchPartHead s d lift p := by
  unfold Machine.catchPartHead
  simp only [h.originOf, h.readable, h.entryChain, h.keyed, h.music, h.pressPos]

theorem catchHead (hc : u.sched.catchUp = s.sched.catchUp) (d : Division) : catchHead u d = catchHead s d := by
  unfold Machine.catchHead
  rw [hc]
  simp only [show ∀ c : CatchUp, Machine.catchPartHead u d c.liftPos = Machine.catchPartHead s d c.liftPos from
    fun c => funext (h.catchPartHead d c.liftPos)]

theorem walkFinished (hc : u.sched.catchUp = s.sched.catchUp) (i : EntryNo) (place : Option Nat) :
    walkFinished u i place = walkFinished s i place := by
  unfold Machine.walkFinished
  simp only [h.readable, h.walkHead, h.catchHead hc]

theorem finishedSounding (hq : u.sched.queues = s.sched.queues) (hc : u.sched.catchUp = s.sched.catchUp)
    (hw : u.sched.walkCurrent = s.sched.walkCurrent) (hn : u.sched.walkNext = s.sched.walkNext) (i : EntryNo) :
    finishedSounding u i = finishedSounding s i := by
  unfold Machine.finishedSounding noActions queue
  rw [hq, hw, hn, h.current, h.engagedIndex, h.walkFinished hc, h.walkFinished hc]

end

theorem of_frame {s u : State} (hs : u.store = s.store) (ht : u.tables = s.tables) (hf : unscored u.follower = unscored s.follower) :
    SameEntries s u := ⟨.of_store hs ht, hf⟩

theorem trans {s u v : State} (h1 : SameEntries s u) (h2 : SameEntries u v) : SameEntries s v :=
  ⟨h1.toSameNotes.trans h2.toSameNotes, h2.follower.trans h1.follower⟩

end SameEntries

/-- The switch of the current entry that waits on an entry's finishing, when it is due. -/
def currentSwitch (s : State) : State :=
  match cancelled s, s.follower.current with
  | false, some i => switchIfFinished s i
  | _, _ => s

theorem waitingSwitches_eq (s : State) : waitingSwitches s = match engagedIndex (currentSwitch s) with
    | some i => switchIfFinished (currentSwitch s) i
    | none => currentSwitch s := rfl

namespace Alike

/-- A step that leaves score and tables, taken in both states. -/
theorem frame {s u s' u' : State} (h : Alike s u) (hs : s'.store = s.store) (ht : s'.tables = s.tables) (us : u'.store = u.store)
    (ut : u'.tables = u.tables) (hf : unscored u'.follower = unscored s'.follower) (hsched : u'.sched = s'.sched)
    (hprot : u'.prot = s'.prot) (hclock : u'.clock = s'.clock) (htime : u'.partTime = s'.partTime) : Alike s' u' :=
  ⟨⟨((SameNotes.of_store hs.symm ht.symm).trans h.toSameNotes).trans (.of_store us ut), hf⟩, hsched, hprot, hclock, htime⟩

section
variable {s u : State} (h : Alike s u)
include h

theorem position : position u = position s := position_congr h.clock h.stop h.partTime

theorem onsetPosition (t : PartTime) : onsetPosition u t = onsetPosition s t := by
  rw [Machine.onsetPosition, h.clock]; rfl

theorem crossings (x : Pos) : crossings u x = crossings s x := crossings_congr (by rw [h.clock]) h.origin x

theorem chosenStop : chosenStop u = chosenStop s := by
  unfold Machine.chosenStop
  rw [h.position, h.openHolds, h.phraseEnd, h.nextIndex, h.next]
  simp only [h.startKind, h.planEntry]

theorem formStop : Alike (formStop s) (formStop u) := by
  refine h.frame (by simp) (by simp) (by simp) (by simp) ?_ (by simpa using h.sched) (by simpa using h.prot) (by simpa using h.clock)
    (by simpa using h.partTime)
  unfold Machine.formStop
  rw [h.playing, h.chosenStop]
  split
  · have := h.follower
    exact congrArg (fun f => { f with stop := Machine.chosenStop s }) this
  · exact h.follower

theorem finishedSounding (i : EntryNo) : finishedSounding u i = finishedSounding s i :=
  h.toSameEntries.finishedSounding (by rw [h.sched]) (by rw [h.sched]) (by rw [h.sched]) (by rw [h.sched]) i

theorem makeSwitch (i : EntryNo) : Alike (makeSwitch s i) (makeSwitch u i) := by
  refine h.frame (by simp) (by simp) (by simp) (by simp) (by simpa using h.follower) ?_ (by simpa using h.prot)
    (by simpa using h.clock) (by simpa using h.partTime)
  unfold Machine.makeSwitch
  rw [h.planEntry]
  split
  · rw [setActive_sched, setActive_sched]
    have image : ∀ k, formedImage ((u.withSched { u.sched with switched := some i }).withSched
        { (u.withSched { u.sched with switched := some i }).sched with active := some k }) =
        formedImage ((s.withSched { s.sched with switched := some i }).withSched
          { (s.withSched { s.sched with switched := some i }).sched with active := some k }) := fun k =>
      formedImage_congr h.prot h.tables rfl
    rw [image]
    simp only [State.withSched_sched, h.sched]
  · exact h.sched

theorem switchIfFinished (i : EntryNo) : Alike (switchIfFinished s i) (switchIfFinished u i) := by
  unfold Machine.switchIfFinished
  split
  · have made : switchMade u i = switchMade s i := by rw [switchMade, h.sched]; rfl
    rw [h.finishedSounding, made]
    split
    · exact h.makeSwitch i
    · exact h
  · exact h

theorem currentSwitch : Alike (currentSwitch s) (currentSwitch u) := by
  have hc : cancelled u = cancelled s := by rw [cancelled, h.play, h.sched]; rfl
  unfold Machine.currentSwitch
  rw [hc, h.current]
  split
  · exact h.switchIfFinished _
  · exact h

theorem waitingSwitches : Alike (waitingSwitches s) (waitingSwitches u) := by
  have first := h.currentSwitch
  rw [waitingSwitches_eq, waitingSwitches_eq, first.engagedIndex]
  split
  · exact first.switchIfFinished _
  · exact first

theorem withFollower {f g : Follower} (hf : unscored g = unscored f) : Alike (s.withFollower f) (u.withFollower g) :=
  h.frame rfl rfl rfl rfl hf h.sched h.prot h.clock h.partTime

theorem withClock (c : Clock) : Alike (s.withClock c) (u.withClock c) :=
  h.frame rfl rfl rfl rfl h.follower h.sched h.prot rfl h.partTime

theorem postAlert (a b : Alert) : Alike (postAlert s a) (postAlert u b) :=
  h.frame (by simp) (by simp) (by simp) (by simp) (by simpa using h.follower) (by simpa using h.sched) (by simpa using h.prot)
    (by simpa using h.clock) (by simpa using h.partTime)

theorem releasePassed : Alike (releasePassed s) (releasePassed u) := by
  unfold Machine.releasePassed
  rw [h.playing, h.current]
  split
  · rename_i i _ _
    rw [h.readable, h.origin, h.holdsOf, h.position, h.released]
    split
    · exact h.withFollower (congrArg (fun f : Follower => { f with
        released := s.follower.released ++ (Machine.holdsOf s i s.follower.origin).filter fun x => decide (x < Machine.position s) })
          h.follower)
    · exact h
  · exact h

theorem beginAt (o x : Pos) : Alike (beginAt s o x) (beginAt u o x) := by
  have begun : Alike
      ((s.withFollower { s.follower with
        play := if x < o then .gap else .running, origin := o, timer := none, checkHeld := false, stop := none
        pointsCurrent := some (s.follower.pointsCurrent.getD 0) }).withSched { s.sched with
          walkCurrent := some (s.sched.walkCurrent.getD 0) })
      ((u.withFollower { u.follower with
        play := if x < o then .gap else .running, origin := o, timer := none, checkHeld := false, stop := none
        pointsCurrent := some (u.follower.pointsCurrent.getD 0) }).withSched { u.sched with
          walkCurrent := some (u.sched.walkCurrent.getD 0) }) := by
    refine h.frame rfl rfl rfl rfl ?_ ?_ h.prot h.clock h.partTime
    · rw [h.pointsCurrent]
      exact congrArg (fun f : Follower => { f with
        play := if x < o then .gap else .running, origin := o, timer := none, checkHeld := false, stop := none
        pointsCurrent := some (s.follower.pointsCurrent.getD 0) }) h.follower
    · exact congrArg (fun c : Sched => { c with walkCurrent := some (c.walkCurrent.getD 0) }) h.sched
  exact begun.releasePassed.formStop

theorem raiseHighest (x : Pos) (t t' : PartTime) : Alike (raiseHighest s x t) (raiseHighest u x t') := by
  refine h.frame (by simp) (by simp) (by simp) (by simp) (by simpa using h.follower) (by simpa using h.sched) (by simpa using h.prot)
    ?_ (by simpa using h.partTime)
  rw [raiseHighest_clock, raiseHighest_clock, h.crossings, h.clock]

theorem applyPendingTempo (x : Pos) : Alike (applyPendingTempo s x) (applyPendingTempo u x) := by
  unfold Machine.applyPendingTempo
  rw [h.clock]
  split
  · rename_i p _
    rw [h.clampPeriod, h.partTime]
    exact h.withClock _
  · exact h

theorem riseTo (x : Pos) (t t' : PartTime) (now : Pos) : Alike (riseTo s x t now) (riseTo u x t' now) := by
  simp only [Machine.riseTo]
  rw [h.crossings]
  split
  · exact h.raiseHighest x t t'
  · exact (h.raiseHighest x t t').applyPendingTempo now

theorem installAnchor (ta : PartTime) (xa : Pos) (p : Nat) : Alike (installAnchor s ta xa p) (installAnchor u ta xa p) := by
  simp only [Machine.installAnchor]
  rw [h.stop, h.clock, h.partTime]
  split
  · split
    · exact h.withClock _
    · exact h.withClock _
  · exact h.withClock _

theorem reanchor (ta : PartTime) (xa : Pos) (p : Nat) : Alike (reanchor s ta xa p) (reanchor u ta xa p) := by
  have installed := h.installAnchor ta xa p
  simp only [Machine.reanchor]
  rw [h.position, installed.position]
  exact installed.riseTo _ _ _ _

theorem syncClock (ta : PartTime) (x : Pos) : Alike (syncClock s ta x) (syncClock u ta x) := by
  unfold Machine.syncClock
  rw [h.clock]
  split
  · exact h
  · exact h.reanchor ta x _

theorem correct (ta : PartTime) (e : Int) (both : Bool) : Alike (correct s ta e both) (correct u ta e both) := by
  simp only [Machine.correct, h.onsetPosition, h.clock, h.tables, h.position, h.partTime]
  split
  · exact h
  · exact h.reanchor _ _ _
  · split
    · exact h.reanchor _ _ _
    · exact h.reanchor _ _ _

theorem releaseStop : Alike (releaseStop s) (releaseStop u) := by
  unfold Machine.releaseStop
  rw [h.play, h.current]
  split
  · refine (h.withFollower ?_).formStop
    change unscored { u.follower with released := u.clock.x0 :: u.follower.released, timer := none, play := .running } = _
    rw [h.clock, h.released]
    exact congrArg (fun f : Follower => { f with
      released := s.clock.x0 :: s.follower.released, timer := none, play := .running }) h.follower
  · rw [h.clock]
    exact ((h.beginAt _ _).postAlert _ _).waitingSwitches
  · exact h

end

end Alike

end Machine

end Sys2Proof
end

section
/-! PROOF. Onsets matched and unexpected (O47): the results a match writes, the confidence it counts, and what is left where the move of the
clock passes no open point and reaches no further one. -/

namespace Sys2Proof

namespace Machine

set_option Elab.async false

/-! ### The results of a match (R8) -/

/-- A step's record with a match of deviation `e` written. -/
def matched (e : Int) (r : StepRec) : StepRec :=
  { r with deviation := some (max (-32767) (min e 32767)), matchCount := min 255 (r.matchCount + 1) }

theorem stepRec_matchStep (e : Int) (s : State) (n k : StepNo) : stepRec (matchStep e s n) k =
    if k = n ∧ (stepRec s n).list ≠ 0 then matched e (stepRec s n) else stepRec s k := by
  unfold matchStep writeResult
  split
  · rename_i h
    rw [if_neg fun hk => hk.2 h]
  · rename_i h
    rw [stepRec_writeStep]
    by_cases hk : k = n
    · rw [if_pos hk, if_pos ⟨hk, h⟩]
      rfl
    · rw [if_neg hk, if_neg fun hk' => hk hk'.1]

theorem stepRec_matchSteps (e : Int) {l : List StepNo} (hl : l.Nodup) (s : State) (k : StepNo) : stepRec (l.foldl (matchStep e) s) k =
    if k ∈ l ∧ (stepRec s k).list ≠ 0 then matched e (stepRec s k) else stepRec s k := by
  induction l generalizing s with
  | nil => rw [if_neg fun h => List.not_mem_nil h.1]; rfl
  | cons n l ih =>
    obtain ⟨hn, hl⟩ := List.nodup_cons.mp hl
    rw [List.foldl_cons, ih hl]
    by_cases hk : k = n
    · subst hk
      rw [if_neg fun h => hn h.1, stepRec_matchStep]
      simp
    · have hsame : stepRec (matchStep e s n) k = stepRec s k := by rw [stepRec_matchStep, if_neg fun h => hk h.1]
      rw [hsame]
      simp [hk]

theorem chains_matchSteps (e : Int) (l : List StepNo) (s : State) : (l.foldl (matchStep e) s).store.chains = s.store.chains := by
  induction l generalizing s with
  | nil => rfl
  | cons n l ih =>
    rw [List.foldl_cons, ih]
    unfold matchStep writeResult
    split <;> rfl

theorem matchWritten_of_store {s t : State} {p : Point} {e : Int} (hp : p.steps.Nodup) (ht : t.store = (writeMatch s p e).store) :
    MatchWritten s t p e := by
  refine ⟨by rw [ht]; exact chains_matchSteps e p.steps s, fun n => ?_⟩
  rw [stepRec, ht]
  exact stepRec_matchSteps e hp s n

/-! ### The count of a match (R110) -/

theorem confMatch_of_kept {s : State} (h : s.follower.conf ≠ .lost) : confMatch s =
    setConf s (s.follower.counter - 1) (confOf (s.follower.counter - 1)) s.follower.run := by
  unfold confMatch
  split
  · contradiction
  · rfl

theorem confMatch_of_lost {s : State} (h : s.follower.conf = .lost) : confMatch s =
    s.withFollower { s.follower with run := min 8 (s.follower.run + 1) } := by rw [confMatch, h]

/-- The state with a match written and counted. -/
def matchCounted (s : State) (p : Point) (e : Int) : State := confMatch (writeMatch s p e)

theorem writeMatch_follower (s : State) (p : Point) (e : Int) : (writeMatch s p e).follower = s.follower := by simp

theorem matchCounted_of_kept {s : State} (h : s.follower.conf ≠ .lost) (p : Point) (e : Int) : matchCounted s p e =
    setConf (writeMatch s p e) (s.follower.counter - 1) (confOf (s.follower.counter - 1)) s.follower.run := by
  have hf := writeMatch_follower s p e
  rw [matchCounted, confMatch_of_kept (by rw [hf]; exact h), hf]

theorem matchCounted_of_lost {s : State} (h : s.follower.conf = .lost) (p : Point) (e : Int) : matchCounted s p e =
    (writeMatch s p e).withFollower { s.follower with run := min 8 (s.follower.run + 1) } := by
  have hf := writeMatch_follower s p e
  rw [matchCounted, confMatch_of_lost (by rw [hf]; exact h), hf]

theorem Alike.right {s u : State} (h : Alike s u) {f : Follower} (hf : unscored f = unscored u.follower) : Alike s (u.withFollower f) :=
  h.frame rfl rfl rfl rfl (hf.trans h.follower) h.sched h.prot h.clock h.partTime

theorem alike_writeMatch (s : State) (p : Point) (e : Int) : Alike s (writeMatch s p e) :=
  ⟨⟨sameNotes_writeMatch s p e, congrArg unscored (writeMatch_follower s p e)⟩, by simp, by simp, by simp, by simp⟩

theorem alike_matchCounted (s : State) (p : Point) (e : Int) : Alike s (matchCounted s p e) := by
  unfold matchCounted confMatch
  split
  · exact (alike_writeMatch s p e).right rfl
  · exact (alike_writeMatch s p e).right rfl

/-! ### Nothing passed, nothing reached (R105, R106) -/

theorem openReachedFor_of_none (n : Nat) {s : State} (h : reachedPoint s = none) : openReachedFor n s = s := by
  cases n with
  | zero => rfl
  | succ n => rw [openReachedFor, h]

theorem openReached_closePassed {s : State} (h : NonePassed s s.follower.window (position s)) : openReached (closePassed s) = s := by
  obtain ⟨hpassed, hreached⟩ := h
  have hwithin : ∀ q ∈ s.follower.window, passedPoint (position s) q = false := fun q hq =>
    decide_eq_false (not_lt.mpr (hpassed q hq))
  have hgone : s.follower.window.filter (passedPoint (position s)) = [] :=
    List.filter_eq_nil_iff.mpr fun q hq => by rw [hwithin q hq]; nofun
  have hkept : s.follower.window.filter (fun q => !passedPoint (position s) q) = s.follower.window :=
    List.filter_eq_self.mpr fun q hq => by rw [hwithin q hq]; rfl
  have hclosed : closePassed s = s := by
    simp only [closePassed]
    rw [hgone, hkept]
    rfl
  rw [hclosed]
  refine openReachedFor_of_none _ ?_
  unfold reachedPoint
  cases hl : remainingPoints s with
  | nil => rfl
  | cons q rest => exact if_neg (not_le.mpr (hreached q (by rw [hl]; rfl)))

theorem NonePassed.congr {s u : State} (h : SameEntries s u) {w : List Point} {x : Pos} (hn : NonePassed s w x) : NonePassed u w x :=
  ⟨hn.1, fun q hq => hn.2 q (by rwa [h.remainingPoints] at hq)⟩

theorem announce_follower (found : Conf) (s : State) : (announce found s).follower = s.follower := by simp

/-- What is left of a move of the clock that passes no open point and reaches no further one. -/
theorem settled_move {c v : State} (h : Alike c v) (hm : c.clock.state = .moving)
    (hn : NonePassed c v.follower.window (position c)) (found : Conf) :
    settle (announce found (if playing v then openReached (closePassed v) else v)) = announce found v := by
  have hv : openReached (closePassed v) = v := openReached_closePassed (by rw [h.position]; exact hn.congr h.toSameEntries)
  have same : (if playing v then openReached (closePassed v) else v) = v := by
    split
    · exact hv
    · rfl
  rw [same]
  exact settle_of_not_held (by rw [(announce_keeps found v).2.2.2.2.2.2.1, h.clock, hm]; nofun)

/-- A move in a wait or a hold opens and closes no point. -/
theorem settled_stopped_play {v : State} (h : playing v = false) (found : Conf) :
    settle (announce found (if playing v then openReached (closePassed v) else v)) = announce found v := by
  rw [h]
  exact settle_of_not_playing (by rw [playing, announce_follower]; exact h)

theorem withPoints_of_same {v : State} {f : Follower} {w : List Point} (h : unscored v.follower = unscored f)
    (hw : v.follower.window = w) {t : State} (ht : t.follower = v.follower) : t.follower = withPoints f w t := by
  subst hw
  rw [withPoints, ht]
  exact congrArg (fun g : Follower => { g with
    window := v.follower.window, pointsCurrent := v.follower.pointsCurrent, pointsNext := v.follower.pointsNext
    counter := v.follower.counter, conf := v.follower.conf, run := v.follower.run }) h

/-! ### Alerts -/

theorem length_postAlert (s : State) (a : Alert) : (postAlert s a).handler.alerts.length ≤ s.handler.alerts.length + 1 := by
  rcases postAlert_cases s a with ⟨-, h⟩ | ⟨-, h⟩
  · rw [h]
    simp
  · rw [h]
    simp

theorem length_raised (s : State) (x : Pos) (t : PartTime) :
    (raiseHighest s x t).handler.alerts.length ≤ s.handler.alerts.length + 1 := by
  simp only [raiseHighest]
  split
  · exact length_postAlert _ _
  · exact Nat.le_succ _

theorem installAnchor_handler (s : State) (ta : PartTime) (xa : Pos) (p : Nat) : (installAnchor s ta xa p).handler = s.handler := by
  simp only [installAnchor]
  split
  · split <;> rfl
  · rfl

theorem length_reanchor (s : State) (ta : PartTime) (xa : Pos) (p : Nat) :
    (reanchor s ta xa p).handler.alerts.length ≤ s.handler.alerts.length + 1 := by
  simp only [reanchor]
  rw [riseTo_handler]
  have := length_raised (installAnchor s ta xa p) (max (position s) (position (installAnchor s ta xa p))) s.partTime
  rwa [installAnchor_handler] at this

theorem length_correct (s : State) (ta : PartTime) (e : Int) (both : Bool) :
    (correct s ta e both).handler.alerts.length ≤ s.handler.alerts.length + 1 := by
  simp only [correct]
  split
  · exact Nat.le_succ _
  · exact length_reanchor _ _ _ _
  · split
    · exact length_reanchor _ _ _ _
    · exact length_reanchor _ _ _ _

theorem length_warnRise (s : State) (old new : Nat) : (warnRise s old new).handler.alerts.length ≤ s.handler.alerts.length + 1 := by
  unfold warnRise
  split
  · exact length_postAlert _ _
  · exact Nat.le_succ _

/-- The CONFIDENCE alert of an event that leaves another state than it found. -/
theorem confidence_mem_announce {s : State} {found : Conf} (h : s.follower.conf ≠ found) (hroom : s.handler.alerts.length < 16) :
    .confidence s.follower.conf s.follower.counter s.partTime ∈ (announce found s).handler.alerts := by
  rw [announce, if_neg h, postAlert_of_room hroom]
  exact List.mem_append_right _ List.mem_cons_self

/-! ### Onsets taken (R107) -/

theorem takes_iff (s : State) (o : Onset) : Takes s o ↔ (listens s && qualified s o) = true := by
  simp [Takes, listens, qualified]

theorem deliverOnset_of_taken {s : State} {o : Onset} (h : Takes s o) : deliverOnset s o = takeOnset s o := if_pos ((takes_iff s o).mp h)

theorem deliverOnset_of_not_taken {s : State} {o : Onset} (h : ¬Takes s o) : deliverOnset s o = s :=
  if_neg fun ht => h ((takes_iff s o).mpr ht)

/-- The onset is one of the phrase: play runs, or the stop point it finds was reached only after it. -/
def Sung (s : State) (o : Onset) : Prop :=
  playing s = true ∨ ((s.follower.play = .waiting ∨ s.follower.play = .holding) ∧ afterReach s o.time = false)

theorem takeOnset_of_sung {s : State} {o : Onset} (h : Sung s o) : takeOnset s o = matchOnset s o := by
  unfold takeOnset
  rcases h with h | ⟨h | h, ha⟩
  · cases hp : s.follower.play with
    | gap => rfl
    | running => rfl
    | _ => rw [playing, hp] at h; cases h
  · rw [h, ha]; rfl
  · rw [h, ha]; rfl

theorem matchOnset_of_none {s : State} {o : Onset} (h : matchFor s (onsetPosition s o.time) = none) :
    matchOnset s o = announce s.follower.conf (confRise s 1) := by rw [matchOnset, h]

theorem matchOnset_of_some {s : State} {o : Onset} {p : Point} (h : matchFor s (onsetPosition s o.time) = some p) :
    matchOnset s o = matchPoint s o.time p := by rw [matchOnset, h]

/-! ### A match (R109) -/

theorem matchPoint_eq (s : State) (tOn : PartTime) (p : Point) :
    let e := p.pos - onsetPosition s tOn
    let v := pointGone (correctMatch (matchCounted s p e) tOn p e) p
    matchPoint s tOn p = settle (announce s.follower.conf (if playing v then openReached (closePassed v) else v)) := rfl

end Machine

end Sys2Proof
end

section
/-! PROOF. O47 settled: an onset passed over, unexpected, matched outside LOST, in LOST, and matched as the last of a recovery. -/

namespace Sys2Proof

namespace Machine

set_option Elab.async false

/-! ### An unexpected onset -/

/-- `t` is `s` but for what waits to be sent. -/
def OnlySends (s t : State) : Prop := t = (s.withHandler t.handler).withRelay t.relay

theorem onlySends_postAlert (s : State) (a : Alert) : OnlySends s (postAlert s a) := by
  unfold OnlySends
  rcases postAlert_cases s a with ⟨-, h⟩ | ⟨-, h⟩
  · rw [h]; rfl
  · rw [h]; rfl

theorem onlySends_announce (found : Conf) (s : State) : OnlySends s (announce found s) := by
  unfold announce
  split
  · rfl
  · exact onlySends_postAlert _ _

theorem onlySends_warnRise (s : State) (old new : Nat) : OnlySends s (warnRise s old new) := by
  unfold warnRise
  split
  · exact onlySends_postAlert _ _
  · rfl

/-- A rise beyond 255 that coasts leaves the counter, the state and the alerts. -/
theorem announce_lostNow (s : State) (found : Conf) : announce found (lostNow s) =
    ((s.withFollower { s.follower with counter := 255, conf := .lost, run := 0 }).withHandler
      (announce found (lostNow s)).handler).withRelay (announce found (lostNow s)).relay := by
  have hwarn := onlySends_warnRise s s.follower.counter 255
  have hconf := onlySends_announce found (lostNow s)
  unfold OnlySends at hwarn hconf
  generalize announce found (lostNow s) = t at hconf ⊢
  rw [hconf, lostNow, hwarn]
  rfl

theorem finishPlay_confidence (s : State) : (finishPlay s).follower.counter = s.follower.counter ∧
    (finishPlay s).follower.conf = s.follower.conf ∧ (finishPlay s).follower.run = s.follower.run := by
  unfold finishPlay
  split
  · exact ⟨rfl, rfl, rfl⟩
  · exact ⟨rfl, rfl, rfl⟩
  · exact ⟨rfl, rfl, rfl⟩
  · split
    · exact ⟨rfl, rfl, rfl⟩
    · rw [formStop_follower]; exact ⟨rfl, rfl, rfl⟩

theorem length_lostNow (s : State) : (lostNow s).handler.alerts.length ≤ s.handler.alerts.length + 1 :=
  length_warnRise s s.follower.counter 255

/-- A rise beyond 255: LOST, whatever the lost action. -/
theorem confRise_beyond_lost {s : State} (h : s.follower.conf ≠ .lost) {n : Nat} (hn : 255 < s.follower.counter + n) :
    let t := confRise s n
    t.follower.counter = 255 ∧ t.follower.conf = .lost ∧ t.follower.run = 0 ∧
      t.handler.alerts.length ≤ s.handler.alerts.length + 1 := by
  intro t
  have ht : t = if s.tables.follow.lostAction = .finish then finishPlay (lostNow s) else lostNow s := confRise_beyond h hn
  have hlost := lostNow_follower s
  obtain ⟨hcounter, hconf, hrun⟩ := finishPlay_confidence (lostNow s)
  have hhandler : (finishPlay (lostNow s)).handler = (lostNow s).handler := by simp
  rw [ht]
  split
  · rw [hcounter, hconf, hrun, hhandler, hlost]
    exact ⟨rfl, rfl, rfl, length_lostNow s⟩
  · rw [hlost]
    exact ⟨rfl, rfl, rfl, length_lostNow s⟩

/-! ### The end of a stop at the last match of a recovery (R113) -/

theorem waitingSwitches_follower (s : State) : (waitingSwitches s).follower = s.follower := by simp

theorem releaseStop_of_playing {s : State} (h : playing s = true) : releaseStop s = s := by
  unfold releaseStop
  split
  · rename_i hp; rw [playing, hp] at h; cases h
  · rename_i hp _; rw [playing, hp] at h; cases h
  · rfl

theorem releaseStop_of_holding {s : State} (h : s.follower.play = .holding) :
    releaseStop s = formStop (withPlay (dropHold s) .running) := by rw [releaseStop, h]

theorem releaseStop_of_waiting {s : State} {i : EntryNo} (h : s.follower.play = .waiting) (hc : s.follower.current = some i) :
    releaseStop s = waitingSwitches (postPhrase (beginAt s s.clock.x0 s.clock.x0) i .synced) := by rw [releaseStop, h, hc]

/-- What the end of a stop leaves: the clock, the open points and the confidence, and one alert at most. -/
theorem releaseStop_spec (s : State) : (releaseStop s).clock = s.clock ∧ (releaseStop s).follower.window = s.follower.window ∧
    (releaseStop s).follower.conf = s.follower.conf ∧ (releaseStop s).handler.alerts.length ≤ s.handler.alerts.length + 1 := by
  unfold releaseStop
  split
  · refine ⟨by simp [withPlay, dropHold], ?_, ?_, ?_⟩
    · rw [formStop_follower]; rfl
    · rw [formStop_follower]; rfl
    · rw [(formStop_keeps _).2.2.2.1]; exact Nat.le_succ _
  · rename_i i _ _
    have hf : (postPhrase (beginAt s s.clock.x0 s.clock.x0) i .synced).follower = (beginAt s s.clock.x0 s.clock.x0).follower := by simp
    have hh : (waitingSwitches (postPhrase (beginAt s s.clock.x0 s.clock.x0) i .synced)).handler =
        (postPhrase (beginAt s s.clock.x0 s.clock.x0) i .synced).handler := by simp
    have hb : (beginAt s s.clock.x0 s.clock.x0).handler = s.handler := by simp
    rw [waitingSwitches_follower, hf, beginAt_follower, hh]
    refine ⟨by simp, rfl, rfl, ?_⟩
    have := length_postAlert (beginAt s s.clock.x0 s.clock.x0)
      (.phrase i (planEntry (beginAt s s.clock.x0 s.clock.x0) i).start .synced (beginAt s s.clock.x0 s.clock.x0).partTime)
    rwa [hb] at this
  · exact ⟨rfl, rfl, rfl, Nat.le_succ _⟩

theorem syncClock_of_running {s : State} (h : s.clock.state ≠ .stopped) (tOn : PartTime) (x : Pos) :
    syncClock s tOn x = reanchor s tOn x s.clock.period := by
  unfold syncClock
  split
  · contradiction
  · rfl

theorem reanchor_follower (s : State) (ta : PartTime) (xa : Pos) (p : Nat) : (reanchor s ta xa p).follower = s.follower := by simp

/-! ### A match outside LOST, in LOST, and the last of a recovery -/

theorem matchPoint_store (s : State) (tOn : PartTime) (p : Point) :
    (matchPoint s tOn p).store = (writeMatch s p (p.pos - onsetPosition s tOn)).store := by
  rw [matchPoint_eq]
  simp only [settle_keeps, announce_keeps]
  split
  · simp [pointGone, matchCounted]
  · simp [pointGone, matchCounted]

/-- How far point `p` lies ahead of the position at the onset time. -/
def deviationOf (s : State) (tOn : PartTime) (p : Point) : Int := p.pos - onsetPosition s tOn

/-- The correction a match makes outside LOST. -/
def corrected (s : State) (tOn : PartTime) (p : Point) : State :=
  correct s tOn (deviationOf s tOn p) (decide (s.follower.counter - 1 < 128))

/-- The state a match outside LOST leaves, before points are closed and opened. -/
def keptMatch (s : State) (tOn : PartTime) (p : Point) : State :=
  pointGone (correct (matchCounted s p (deviationOf s tOn p)) tOn (deviationOf s tOn p) (decide (s.follower.counter - 1 < 128))) p

theorem correctMatch_of_kept {s : State} (h : s.follower.conf ≠ .lost) (tOn : PartTime) (p : Point) (e : Int) :
    correctMatch (matchCounted s p e) tOn p e = correct (matchCounted s p e) tOn e (decide (s.follower.counter - 1 < 128)) := by
  have hc : (matchCounted s p e).follower.conf = confOf (s.follower.counter - 1) := by rw [matchCounted_of_kept h]; rfl
  rw [correctMatch, hc, confOf]
  by_cases hlt : s.follower.counter - 1 < 128
  · rw [if_pos hlt, decide_eq_true hlt]
  · rw [if_neg hlt, decide_eq_false hlt]

theorem matchPoint_of_kept {s : State} (h : s.follower.conf ≠ .lost) (tOn : PartTime) (p : Point) : matchPoint s tOn p =
    settle (announce s.follower.conf
      (if playing (keptMatch s tOn p) then openReached (closePassed (keptMatch s tOn p)) else keptMatch s tOn p)) := by
  have hm := matchPoint_eq s tOn p
  dsimp only at hm
  rw [correctMatch_of_kept h] at hm
  exact hm

theorem alike_keptMatch (s : State) (tOn : PartTime) (p : Point) : Alike (corrected s tOn p) (keptMatch s tOn p) :=
  ((alike_matchCounted s p (deviationOf s tOn p)).correct _ _ _).right rfl

theorem correct_follower (s : State) (tOn : PartTime) (e : Int) (both : Bool) : (correct s tOn e both).follower = s.follower := by simp

theorem keptMatch_follower {s : State} (h : s.follower.conf ≠ .lost) (tOn : PartTime) (p : Point) : (keptMatch s tOn p).follower =
    { s.follower with
      counter := s.follower.counter - 1, conf := confOf (s.follower.counter - 1), window := s.follower.window.erase p } := by
  change ({ (correct _ _ _ _).follower with window := _ } : Follower) = _
  rw [correct_follower, matchCounted_of_kept h]
  change ({ (setConf (writeMatch s p _) _ _ _).follower with window := (setConf (writeMatch s p _) _ _ _).follower.window.erase p } :
    Follower) = _
  rw [setConf, writeMatch_follower]
  rfl

/-- A match outside LOST after which no point is closed or opened. -/
theorem matchPoint_kept {s : State} (h : s.follower.conf ≠ .lost) (tOn : PartTime) (p : Point) {t : State}
    (ht : t = announce s.follower.conf (keptMatch s tOn p)) :
    MatchCounted s t ∧
      (s.handler.alerts.length < 15 → t.follower.conf ≠ s.follower.conf →
        .confidence t.follower.conf t.follower.counter s.partTime ∈ t.handler.alerts) ∧
      t.clock = (corrected s tOn p).clock ∧ t.sched = s.sched ∧
      t.follower = withPoints s.follower (s.follower.window.erase p) t := by
  have hf := keptMatch_follower h tOn p
  have halike := alike_keptMatch s tOn p
  have htf : t.follower = (keptMatch s tOn p).follower := by rw [ht, announce_follower]
  refine ⟨⟨fun _ => ?_, fun hl => absurd hl h, fun hl => absurd hl h⟩, fun hroom hne => ?_, ?_, ?_, ?_⟩
  · rw [htf, hf]
    exact ⟨rfl, rfl, rfl⟩
  · have htime : (keptMatch s tOn p).partTime = s.partTime := by simp [keptMatch, pointGone, matchCounted]
    have hlen : (keptMatch s tOn p).handler.alerts.length < 16 := by
      have hl := length_correct (matchCounted s p (deviationOf s tOn p)) tOn (deviationOf s tOn p) (decide (s.follower.counter - 1 < 128))
      have hh : (matchCounted s p (deviationOf s tOn p)).handler = s.handler := by
        rw [matchCounted_of_kept h, setConf]
        simp
      rw [hh] at hl
      exact lt_of_le_of_lt hl (Nat.add_lt_add_right hroom 1)
    rw [htf] at hne
    have hmem := confidence_mem_announce hne hlen
    rw [htime] at hmem
    rw [htf, ht]
    exact hmem
  · rw [ht, (announce_keeps _ _).2.2.2.2.2.2.1, halike.clock]
  · rw [ht, (announce_keeps _ _).2.2.2.2.2.2.2.2.1, halike.sched]
    simp [corrected]
  · exact withPoints_of_same (by rw [hf]; rfl) (by rw [hf]) htf

/-- A match in LOST that does not complete the recovery. -/
def lostMatch (s : State) (tOn : PartTime) (p : Point) : State := pointGone (matchCounted s p (deviationOf s tOn p)) p

theorem lostMatch_follower {s : State} (h : s.follower.conf = .lost) (tOn : PartTime) (p : Point) : (lostMatch s tOn p).follower =
    { s.follower with run := min 8 (s.follower.run + 1), window := s.follower.window.erase p } := by
  rw [lostMatch, matchCounted_of_lost h]
  rfl

theorem alike_lostMatch (s : State) (tOn : PartTime) (p : Point) : Alike s (lostMatch s tOn p) := (alike_matchCounted s p _).right rfl

theorem recovers_matchCounted {s : State} (h : s.follower.conf = .lost) (p : Point) (e : Int) :
    recovers (matchCounted s p e) = decide (7 ≤ s.follower.run) := by
  have hf : (matchCounted s p e).follower = { s.follower with run := min 8 (s.follower.run + 1) } := by
    rw [matchCounted_of_lost h]; rfl
  rw [recovers, hf]
  simp [h]

theorem matchPoint_of_lost {s : State} (h : s.follower.conf = .lost) (hrun : s.follower.run < 7) (tOn : PartTime) (p : Point) :
    matchPoint s tOn p = settle (announce s.follower.conf
      (if playing (lostMatch s tOn p) then openReached (closePassed (lostMatch s tOn p)) else lostMatch s tOn p)) := by
  have hm := matchPoint_eq s tOn p
  dsimp only at hm
  have hc : (matchCounted s p (p.pos - onsetPosition s tOn)).follower.conf = .lost := by rw [matchCounted_of_lost h]; exact h
  have hsame : correctMatch (matchCounted s p (p.pos - onsetPosition s tOn)) tOn p (p.pos - onsetPosition s tOn) =
      matchCounted s p (p.pos - onsetPosition s tOn) := by
    rw [correctMatch, hc, recovers_matchCounted h, decide_eq_false (not_le.mpr hrun)]
    rfl
  rw [hsame] at hm
  exact hm

/-- A match in LOST, not the last of a recovery, after which no point is closed or opened. -/
theorem matchPoint_lost {s : State} (h : s.follower.conf = .lost) (hrun : s.follower.run < 7) (tOn : PartTime) (p : Point) {t : State}
    (ht : t = announce s.follower.conf (lostMatch s tOn p)) :
    MatchCounted s t ∧ t.clock = s.clock ∧ t.sched = s.sched ∧ t.handler = s.handler ∧
      t.follower = withPoints s.follower (s.follower.window.erase p) t := by
  have hf := lostMatch_follower h tOn p
  have halike := alike_lostMatch s tOn p
  have hsame : t = lostMatch s tOn p := ht.trans (announce_of_same (by rw [hf]))
  have hhandler : (lostMatch s tOn p).handler = s.handler := by
    rw [lostMatch, matchCounted_of_lost h]
    simp [pointGone]
  rw [hsame]
  refine ⟨⟨fun hn => absurd h hn, fun _ _ => ?_, fun _ h7 => absurd h7 hrun.ne⟩, halike.clock, halike.sched, hhandler,
    withPoints_of_same (by rw [hf]; rfl) (by rw [hf]) rfl⟩
  rw [hf]
  exact ⟨rfl, h, min_eq_right (by omega)⟩

/-- The last match of a recovery: the stop released, the hard sync made, the loss ended. -/
def recoveredMatch (s : State) (tOn : PartTime) (p : Point) : State :=
  pointGone (clearBelow (recoverConf (syncClock (releaseStop (matchCounted s p (deviationOf s tOn p))) tOn p.pos)) p.pos) p

theorem matchPoint_of_recovered {s : State} (h : s.follower.conf = .lost) (hrun : s.follower.run = 7) (tOn : PartTime) (p : Point) :
    matchPoint s tOn p = settle (announce s.follower.conf
      (if playing (recoveredMatch s tOn p) then openReached (closePassed (recoveredMatch s tOn p)) else recoveredMatch s tOn p)) := by
  have hm := matchPoint_eq s tOn p
  dsimp only at hm
  have hc : (matchCounted s p (p.pos - onsetPosition s tOn)).follower.conf = .lost := by rw [matchCounted_of_lost h]; exact h
  have hsync : correctMatch (matchCounted s p (p.pos - onsetPosition s tOn)) tOn p (p.pos - onsetPosition s tOn) =
      clearBelow (recoverConf (syncClock (releaseStop (matchCounted s p (p.pos - onsetPosition s tOn))) tOn p.pos)) p.pos := by
    rw [correctMatch, hc, recovers_matchCounted h, hrun]
    rfl
  rw [hsync] at hm
  exact hm

theorem erase_pointsAbove (w : List Point) (p : Point) : (pointsAbove w p.pos).erase p = pointsAbove w p.pos :=
  List.erase_of_not_mem fun hm => absurd (of_decide_eq_true (List.mem_filter.mp hm).2) (lt_irrefl _)

/-- A recovery made in `y` at point `p`. -/
def recoveredAt (y : State) (p : Point) : State := pointGone (clearBelow (recoverConf y) p.pos) p

theorem recoveredAt_follower (y : State) (p : Point) : (recoveredAt y p).follower = { y.follower with
    counter := 0, conf := .locked, run := 0, window := pointsAbove y.follower.window p.pos } := by
  have := erase_pointsAbove y.follower.window p
  change ({ y.follower with counter := 0, conf := .locked, run := 0, window := (pointsAbove y.follower.window p.pos).erase p } :
    Follower) = _
  rw [this]

theorem recoveredAt_handler (y : State) (p : Point) : (recoveredAt y p).handler = y.handler := rfl

theorem alike_recoveredAt {c y : State} (h : Alike c y) (p : Point) : Alike c (recoveredAt y p) := h.right rfl

/-- The last match of a recovery, after which no point is closed or opened. -/
theorem matchPoint_recovered {s : State} (h : s.follower.conf = .lost) (hrun : s.follower.run = 7) (hclock : s.clock.state ≠ .stopped)
    (tOn : PartTime) (p : Point) {c : State} (hc : c = reanchor (releaseStop s) tOn p.pos (releaseStop s).clock.period) :
    Alike c (recoveredMatch s tOn p) ∧
      (recoveredMatch s tOn p).follower.window = pointsAbove (releaseStop s).follower.window p.pos ∧
      ∀ t, t = announce s.follower.conf (recoveredMatch s tOn p) →
        MatchCounted s t ∧ t.clock = c.clock ∧ t.sched = (releaseStop s).sched ∧
        t.follower = withPoints (releaseStop s).follower (pointsAbove (releaseStop s).follower.window p.pos) t ∧
        (s.handler.alerts.length < 14 → .confidence .locked 0 s.partTime ∈ t.handler.alerts) := by
  let m := matchCounted s p (deviationOf s tOn p)
  have hm : Alike s m := alike_matchCounted s p _
  have hmf : m.follower = { s.follower with run := min 8 (s.follower.run + 1) } := by
    change (matchCounted s p _).follower = _
    rw [matchCounted_of_lost h]
    rfl
  have hmh : m.handler = s.handler := by
    change (matchCounted s p _).handler = _
    rw [matchCounted_of_lost h]
    simp
  obtain ⟨hsclock, hswindow, -, -⟩ := releaseStop_spec s
  obtain ⟨hrclock, hrwindow, -, hrlen⟩ := releaseStop_spec m
  have hsync : syncClock (releaseStop m) tOn p.pos = reanchor (releaseStop m) tOn p.pos (releaseStop m).clock.period :=
    syncClock_of_running (by rw [hrclock, hm.clock]; exact hclock) _ _
  let y := reanchor (releaseStop m) tOn p.pos (releaseStop m).clock.period
  have hy : Alike c y := by
    rw [hc]
    change Alike _ (reanchor (releaseStop m) tOn p.pos (releaseStop m).clock.period)
    rw [hrclock, hm.clock, hsclock]
    exact hm.releaseStop.reanchor _ _ _
  have hyf : y.follower = (releaseStop m).follower := reanchor_follower _ _ _ _
  have hv : recoveredMatch s tOn p = recoveredAt y p := by
    change recoveredAt (syncClock (releaseStop m) tOn p.pos) p = _
    rw [hsync]
  have halike : Alike c (recoveredMatch s tOn p) := by
    rw [hv]
    exact alike_recoveredAt hy p
  have hvf := recoveredAt_follower y p
  have hwindow : (recoveredMatch s tOn p).follower.window = pointsAbove (releaseStop s).follower.window p.pos := by
    rw [hv, hvf, hyf, hrwindow, hmf, hswindow]
  have hconf : (recoveredMatch s tOn p).follower.conf = .locked ∧ (recoveredMatch s tOn p).follower.counter = 0 ∧
      (recoveredMatch s tOn p).follower.run = 0 := by
    rw [hv, hvf]
    exact ⟨rfl, rfl, rfl⟩
  obtain ⟨hlocked, hzero, hrest⟩ := hconf
  refine ⟨halike, hwindow, fun t ht => ?_⟩
  have htf : t.follower = (recoveredMatch s tOn p).follower := by rw [ht, announce_follower]
  refine ⟨⟨fun hn => absurd h hn, fun _ hlt => absurd hrun hlt.ne, fun _ _ => ?_⟩, ?_, ?_, ?_, fun hroom => ?_⟩
  · rw [htf]
    exact ⟨hzero, hlocked, hrest⟩
  · rw [ht, (announce_keeps _ _).2.2.2.2.2.2.1, halike.clock]
  · rw [ht, (announce_keeps _ _).2.2.2.2.2.2.2.2.1, halike.sched, hc]
    simp
  · refine withPoints_of_same (halike.follower.trans ?_) hwindow htf
    rw [hc, reanchor_follower]
  · have htime : (recoveredMatch s tOn p).partTime = s.partTime := by
      rw [halike.partTime, hc]
      simp
    have hlen : (recoveredMatch s tOn p).handler.alerts.length < 16 := by
      rw [hv, recoveredAt_handler]
      have hl := length_reanchor (releaseStop m) tOn p.pos (releaseStop m).clock.period
      rw [hmh] at hrlen
      change y.handler.alerts.length ≤ _ at hl
      omega
    have hmem := confidence_mem_announce (found := s.follower.conf) (by rw [hlocked, h]; decide) hlen
    rw [hlocked, hzero, htime] at hmem
    rw [ht]
    exact hmem

/-- Settles O47: an onset passed over, unexpected, and matched by what the confidence makes of it. -/
theorem onsetsAreMatchedAndCounted : Obligations.OnsetsAreMatchedAndCounted := by
  unfold Obligations.OnsetsAreMatchedAndCounted
  intro s o x t stopped sung announced
  have deliver (htakes : Takes s o) (hs : Sung s o) : t = matchOnset s o :=
    (deliverOnset_of_taken htakes).trans (takeOnset_of_sung hs)
  refine ⟨fun h => ?passed, fun st r hst hr => ?reach, fun htakes hs hnone => ?unexpected, fun p htakes hs hsome hnodup => ?matched⟩
  case passed =>
    by_cases htakes : Takes s o
    · refine (deliverOnset_of_taken htakes).trans ?_
      rcases h with h | h | h
      · exact absurd htakes h
      · rw [takeOnset, h]
      · rw [takeOnset, h]
    · exact deliverOnset_of_not_taken htakes
  case reach =>
    rw [afterReach, hst]
    dsimp only
    rw [hr]
    exact decide_eq_true_iff
  case unexpected =>
    intro n
    have ht : t = announce s.follower.conf (confRise s 1) := (deliver htakes hs).trans (matchOnset_of_none hnone)
    refine ⟨fun hl => ?lost, fun hl hle hroom => ?within, fun hl hlt => ?beyond⟩
    case lost => rw [ht, confRise_of_lost hl, announce_of_same (by rfl)]
    case within =>
      have flip : (if confOf (s.follower.counter + 1) = s.follower.conf then []
          else [Alert.confidence (confOf (s.follower.counter + 1)) (s.follower.counter + 1) s.partTime]) =
          if s.follower.conf = confOf (s.follower.counter + 1) then []
          else [Alert.confidence (confOf (s.follower.counter + 1)) (s.follower.counter + 1) s.partTime] := if_congr eq_comm rfl rfl
      rw [ht, announce_confRise hl hle hroom, riseAlerts, ← List.append_assoc, flip]
      rfl
    case beyond =>
      obtain ⟨hcounter, hconf, hrun, hlen⟩ := confRise_beyond_lost (s := s) hl hlt
      have htf : t.follower = (confRise s 1).follower := by rw [ht, announce_follower]
      have hlost := lostNow_follower s
      refine ⟨by rw [htf, hcounter], by rw [htf, hconf], by rw [htf, hrun], fun hroom hne => ?_, fun hc => ?_, fun hf hp hfin => ?_,
        fun hf hp => ?_⟩
      · rw [htf] at hne ⊢
        have hmem := confidence_mem_announce hne (hlen.trans_lt (Nat.add_lt_add_right hroom 1))
        rw [ht]
        rwa [show (confRise s 1).partTime = s.partTime by simp] at hmem
      · have hr : confRise s 1 = lostNow s := by
          rw [confRise_beyond hl hlt, if_neg (by rw [hc]; decide)]
        rw [ht, hr]
        exact announce_lostNow s _
      · rw [htf]
        refine (confRise_beyond_follower hl hlt ?_).2.1 hf hfin
        rcases hs with h | ⟨h | h, -⟩
        · exact .inl h
        · exact absurd h hp
        · exact .inr h
      · rw [htf, confRise_beyond hl hlt, if_pos hf, finishPlay, hlost]
        dsimp only
        rw [hp]
        exact ⟨rfl, rfl⟩
  case matched =>
    intro e w
    have ht : t = matchPoint s o.time p := (deliver htakes hs).trans (matchOnset_of_some hsome)
    refine ⟨matchWritten_of_store hnodup (by rw [ht]; exact matchPoint_store s o.time p), by rw [ht]; simp, by rw [ht]; simp, by rw [ht]; simp,
      by rw [ht]; simp, fun hl => ?kept, fun hl hrun hmove => ?lost, fun hl hrun hclock => ?recovered⟩
    case kept =>
      intro c
      have hm := matchPoint_of_kept hl o.time p
      have halike := alike_keptMatch s o.time p
      have hsame : SameEntries s c := .of_frame (by simp [c]) (by simp [c]) (by simp [c])
      refine ⟨fun hp hmoving hc hnone => ?_, fun hstop hheld hpos => ?_⟩
      · have hw : (keptMatch s o.time p).follower.window = w := by rw [keptMatch_follower hl]
        exact matchPoint_kept hl o.time p (ht.trans (hm.trans (settled_move halike hc (by rw [hw]; exact hnone.congr hsame) _)))
      · have hplay : playing (keptMatch s o.time p) = false := by
          rw [playing, keptMatch_follower hl]
          rcases hstop with h | h <;> simp [h]
        obtain ⟨hcount, hann, hclock, hsched, hfol⟩ :=
          matchPoint_kept hl o.time p (ht.trans (hm.trans (settled_stopped_play hplay _)))
        have hc : c = reanchor s s.partTime s.clock.x0 (correctedPeriod s.tables.follow s.clock.period e
            (decide (s.follower.counter - 1 < 128))) := by simp only [c, correct, hheld]
        have hc' : t.clock = c.clock := hclock
        obtain ⟨hstate, hx0⟩ := reanchor_held_at_stop hpos (correctedPeriod s.tables.follow s.clock.period e
            (decide (s.follower.counter - 1 < 128)))
        exact ⟨hcount, hann, hclock, by rw [hc', hc, hstate], by rw [hc', hc, hx0], hsched, hfol⟩
    case lost =>
      have hm := matchPoint_of_lost hl hrun o.time p
      refine matchPoint_lost hl hrun o.time p (ht.trans (hm.trans ?_))
      have hf := lostMatch_follower hl o.time p
      rcases hmove with hstop | ⟨hmoving, hnone⟩
      · refine settled_stopped_play ?_ _
        rw [playing, hf]
        rcases hstop with h | h <;> simp [h]
      · exact settled_move (alike_lostMatch s o.time p) hmoving (by rw [hf]; exact hnone) _
    case recovered =>
      intro u c above
      obtain ⟨halike, hwindow, hspec⟩ := matchPoint_recovered hl hrun hclock o.time p (c := c) rfl
      refine ⟨releaseStop_of_playing, fun hp => ?_, fun i hp hc => ?_, fun hp hc hnone => ?_⟩
      · have hu : u = formStop (withPlay (dropHold s) .running) := releaseStop_of_holding hp
        rw [hu]
        unfold formStop
        split <;> rfl
      · have hu : u = waitingSwitches (postPhrase (beginAt s s.clock.x0 s.clock.x0) i .synced) := releaseStop_of_waiting hp hc
        have huf : u.follower = (beginAt s s.clock.x0 s.clock.x0).follower := by
          rw [hu, waitingSwitches_follower]
          simp
        rw [huf, beginAt_follower]
        refine ⟨if_neg (lt_irrefl _), hc, rfl, rfl, fun hroom => ?_⟩
        have hroom' : (beginAt s s.clock.x0 s.clock.x0).handler.alerts.length < 16 := by
          have : (beginAt s s.clock.x0 s.clock.x0).handler = s.handler := by simp
          rwa [this]
        have hmem := phrase_mem_of_evolves (i := i) (m := .synced) hroom' (evolves_waitingSwitches _)
        rw [hu]
        have hp : planEntry (beginAt s s.clock.x0 s.clock.x0) i = planEntry s i := by simp [planEntry]
        have ht : (beginAt s s.clock.x0 s.clock.x0).partTime = s.partTime := by simp
        rwa [hp, ht] at hmem
      · have hsame : SameEntries u c := .of_frame (by simp [c]) (by simp [c]) (by simp [c])
        refine hspec t (ht.trans ((matchPoint_of_recovered hl hrun o.time p).trans (settled_move halike hc ?_ _)))
        rw [hwindow]
        exact hnone.congr hsame

end Machine

end Sys2Proof
end

section
/-! PROOF. Onsets and cutoffs that end waits and holds (O48): what a hard sync writes, counts and leaves, and the stop points it releases. -/

namespace Sys2Proof

namespace Machine

set_option Elab.async false

/-! ### A hard sync (R113) -/

/-- The sync's match written and counted, a recovery it completes made. -/
def syncCounted (s : State) (p : Point) (e : Int) : State :=
  if recovers (matchCounted s p e) then recoverConf (matchCounted s p e) else matchCounted s p e

/-- The sync made, before points are closed and opened. -/
def syncMoved (s : State) (tOn : PartTime) (p : Point) (e : Int) : State :=
  clearBelow (walkPast (syncClock (syncCounted s p e) tOn p.pos) p) p.pos

theorem hardSync_eq (s : State) (tOn : PartTime) (p : Point) (e : Int) :
    hardSync s tOn p e = announce s.follower.conf (openReached (closePassed (syncMoved s tOn p e))) := rfl

theorem alike_syncCounted (s : State) (p : Point) (e : Int) : Alike s (syncCounted s p e) := by
  unfold syncCounted
  split
  · exact (alike_matchCounted s p e).right rfl
  · exact alike_matchCounted s p e

theorem MatchCounted.congr {s t s' t' : State} (h : MatchCounted s t) (hs : s'.follower = s.follower)
    (hcounter : t'.follower.counter = t.follower.counter) (hconf : t'.follower.conf = t.follower.conf)
    (hrun : t'.follower.run = t.follower.run) : MatchCounted s' t' := by
  unfold MatchCounted
  rw [hs, hcounter, hconf, hrun]
  exact h

theorem matchCounted_syncCounted (s : State) (p : Point) (e : Int) : MatchCounted s (syncCounted s p e) := by
  by_cases h : s.follower.conf = .lost
  · have hf : (matchCounted s p e).follower = { s.follower with run := min 8 (s.follower.run + 1) } := by
      rw [matchCounted_of_lost h]; rfl
    have hr := recovers_matchCounted h p e
    refine ⟨fun hn => absurd h hn, fun _ hlt => ?_, fun _ h7 => ?_⟩
    · rw [syncCounted, if_neg (by rw [hr, decide_eq_false (not_le.mpr hlt)]; nofun), hf]
      exact ⟨rfl, h, min_eq_right (by omega)⟩
    · rw [syncCounted, if_pos (by rw [hr, h7]; rfl)]
      exact ⟨rfl, rfl, rfl⟩
  · have hc : (matchCounted s p e).follower.conf = confOf (s.follower.counter - 1) := by rw [matchCounted_of_kept h]; rfl
    have hr : recovers (matchCounted s p e) = false := by
      rw [recovers, hc, confOf]
      split <;> rfl
    refine ⟨fun _ => ?_, fun hl => absurd hl h, fun hl => absurd hl h⟩
    rw [syncCounted, if_neg (by rw [hr]; nofun), matchCounted_of_kept h]
    exact ⟨rfl, rfl, rfl⟩

theorem syncCounted_window (s : State) (p : Point) (e : Int) : (syncCounted s p e).follower.window = s.follower.window := by
  have hm : (matchCounted s p e).follower.window = s.follower.window := by
    by_cases h : s.follower.conf = .lost
    · rw [matchCounted_of_lost h]; rfl
    · rw [matchCounted_of_kept h, setConf, writeMatch_follower]; rfl
  unfold syncCounted
  split
  · exact hm
  · exact hm

theorem walkPast_of_none {s : State} {p : Point} (h : s.follower.current ≠ some p.entry) (hn : s.follower.next = none) :
    walkPast s p = s := by
  refine (if_neg h).trans ?_
  rw [hn]

theorem SameEntries.unscored_walkPast {s u : State} (h : SameEntries s u) (p : Point) :
    unscored (walkPast u p).follower = unscored (walkPast s p).follower := by
  by_cases hc : s.follower.current = some p.entry
  · rw [walkPast_current hc, walkPast_current (h.current.trans hc), h.origin, h.pointsCurrent]
    generalize some (max (s.follower.pointsCurrent.getD 0) (((p.pos - s.follower.origin) / 256 + 1).toNat)) = v
    exact congrArg (fun f : Follower => { f with pointsCurrent := v }) h.follower
  · have hc' : u.follower.current ≠ some p.entry := fun hu => hc (h.current ▸ hu)
    cases hg : s.follower.next with
    | some g =>
      rw [walkPast_next hc hg, walkPast_next hc' (h.next.trans hg), h.pointsNext]
      generalize some (max (s.follower.pointsNext.getD 0) (((p.pos - g.origin) / 256 + 1).toNat)) = v
      exact congrArg (fun f : Follower => { f with pointsNext := v }) h.follower
    | none =>
      rw [walkPast_of_none hc hg, walkPast_of_none hc' (h.next.trans hg)]
      exact h.follower

theorem SameEntries.walkPast {s u : State} (h : SameEntries s u) (p : Point) : SameEntries (walkPast s p) (walkPast u p) :=
  ⟨((SameNotes.of_store (by simp) (by simp)).trans h.toSameNotes).trans (.of_store (by simp) (by simp)), h.unscored_walkPast p⟩

theorem Alike.trans {s u v : State} (h1 : Alike s u) (h2 : Alike u v) : Alike s v :=
  ⟨h1.toSameEntries.trans h2.toSameEntries, h2.sched.trans h1.sched, h2.prot.trans h1.prot, h2.clock.trans h1.clock,
    h2.partTime.trans h1.partTime⟩

theorem Alike.walkPast {s u : State} (h : Alike s u) (p : Point) : Alike (walkPast s p) (walkPast u p) :=
  h.frame (by simp) (by simp) (by simp) (by simp) (h.unscored_walkPast p) (by simpa using h.sched) (by simpa using h.prot)
    (by simpa using h.clock) (by simpa using h.partTime)

theorem alike_syncMoved (s : State) (tOn : PartTime) (p : Point) (e : Int) :
    Alike (walkPast (syncClock s tOn p.pos) p) (syncMoved s tOn p e) :=
  (((alike_syncCounted s p e).syncClock tOn p.pos).walkPast p).right rfl

theorem syncClock_follower (s : State) (tOn : PartTime) (x : Pos) : (syncClock s tOn x).follower = s.follower := by simp

theorem clearBelow_walkPast_follower (y : State) (p : Point) : let f := (clearBelow (walkPast y p) p.pos).follower
    f.window = pointsAbove y.follower.window p.pos ∧ f.counter = y.follower.counter ∧ f.conf = y.follower.conf ∧
      f.run = y.follower.run := by
  rw [walkPast_spec y p]
  exact ⟨rfl, rfl, rfl, rfl⟩

/-- What a sync leaves of the confidence and of the window list. -/
theorem syncMoved_follower (s : State) (tOn : PartTime) (p : Point) (e : Int) :
    (syncMoved s tOn p e).follower.window = pointsAbove s.follower.window p.pos ∧
      (syncMoved s tOn p e).follower.counter = (syncCounted s p e).follower.counter ∧
      (syncMoved s tOn p e).follower.conf = (syncCounted s p e).follower.conf ∧
      (syncMoved s tOn p e).follower.run = (syncCounted s p e).follower.run := by
  have h := clearBelow_walkPast_follower (syncClock (syncCounted s p e) tOn p.pos) p
  rw [syncClock_follower, syncCounted_window] at h
  exact h

/-- A hard sync whose move passes no open point and reaches no further one. -/
theorem hardSync_spec {s u : State} (halike : Alike u s) (hf : s.follower = u.follower) (hclock : u.clock.state ≠ .stopped) (tOn : PartTime) (p : Point)
    (e : Int) (hnone : NonePassed (walkPast u p) (pointsAbove u.follower.window p.pos)
      (position (reanchor u tOn p.pos u.clock.period))) :
    MatchCounted u (hardSync s tOn p e) ∧
      (hardSync s tOn p e).follower = withPoints u.follower (pointsAbove u.follower.window p.pos) (hardSync s tOn p e) := by
  have hsync : syncClock u tOn p.pos = reanchor u tOn p.pos u.clock.period := syncClock_of_running hclock _ _
  obtain ⟨hwindow, hcounter, hconf, hrun⟩ := syncMoved_follower s tOn p e
  have hmoved : Alike (walkPast (reanchor u tOn p.pos u.clock.period) p) (syncMoved s tOn p e) := by
    rw [← hsync]
    exact ((halike.syncClock tOn p.pos).walkPast p).trans (alike_syncMoved s tOn p e)
  have hentries : SameEntries (walkPast u p) (syncMoved s tOn p e) :=
    (SameEntries.walkPast (.of_frame (by simp) (by simp) (by rw [reanchor_follower])) p).trans hmoved.toSameEntries
  have hstill : openReached (closePassed (syncMoved s tOn p e)) = syncMoved s tOn p e := by
    have hpos : position (walkPast (reanchor u tOn p.pos u.clock.period) p) = position (reanchor u tOn p.pos u.clock.period) :=
      position_congr (by simp) (by rw [walkPast_spec]; rfl) (by simp)
    refine openReached_closePassed ?_
    rw [hmoved.position, hpos, hwindow, hf]
    exact hnone.congr hentries
  have hhs : (hardSync s tOn p e).follower = (syncMoved s tOn p e).follower := by rw [hardSync_eq, hstill, announce_follower]
  refine ⟨(matchCounted_syncCounted s p e).congr hf.symm (by rw [hhs, hcounter]) (by rw [hhs, hconf]) (by rw [hhs, hrun]), ?_⟩
  have hwalk : (walkPast u p).follower = { u.follower with
      pointsCurrent := (walkPast u p).follower.pointsCurrent, pointsNext := (walkPast u p).follower.pointsNext } := by
    have := congrArg State.follower (walkPast_spec u p)
    exact this
  have hun : unscored (syncMoved s tOn p e).follower = unscored { u.follower with
      pointsCurrent := (walkPast u p).follower.pointsCurrent, pointsNext := (walkPast u p).follower.pointsNext } := by
    rw [← hwalk]
    exact hentries.follower
  exact withPoints_of_same hun (by rw [hwindow, hf]) hhs

theorem hardSync_clock (s : State) (tOn : PartTime) (p : Point) (e : Int) :
    (hardSync s tOn p e).clock = (syncClock s tOn p.pos).clock := by
  have h := ((alike_syncCounted s p e).syncClock tOn p.pos).clock
  rw [hardSync_eq]
  simp only [announce_keeps, openReached_keeps, closePassed_keeps]
  rw [syncMoved]
  simpa using h

theorem hardSync_store (s : State) (tOn : PartTime) (p : Point) (e : Int) :
    (hardSync s tOn p e).store = (writeMatch s p e).store := by
  rw [hardSync_eq, syncMoved, syncCounted]
  simp only [announce_keeps, openReached_keeps, closePassed_keeps, clearBelow_keeps, walkPast_keeps, syncClock_keeps]
  split
  · simp [recoverConf, setConf, matchCounted]
  · simp [matchCounted]

/-! ### The alerts of a sync -/

/-- One WARNING is still to come: the confidence is not lost and the counter stands below the warning level. -/
def warningsLeft (s : State) : Nat :=
  if s.follower.conf ≠ .lost ∧ s.follower.counter < s.tables.follow.warning then 1 else 0

theorem warningsLeft_of_kept {s : State} (h : s.follower.conf ≠ .lost) :
    warningsLeft s = if s.follower.counter < s.tables.follow.warning then 1 else 0 := if_congr (and_iff_right h) rfl rfl

theorem confOf_ne_lost (n : Nat) : confOf n ≠ .lost := by
  unfold confOf
  split <;> decide

theorem alerts_warnRise (s : State) (old new : Nat) : (warnRise s old new).handler.alerts.length ≤ s.handler.alerts.length +
    if old < s.tables.follow.warning ∧ s.tables.follow.warning ≤ new then 1 else 0 := by
  unfold warnRise
  split
  · exact length_postAlert _ _
  · exact le_rfl

/-- A miss posts at most the WARNING still to come. -/
theorem alerts_miss (s : State) : (miss s).handler.alerts.length + warningsLeft (miss s) ≤ s.handler.alerts.length + warningsLeft s := by
  unfold miss
  by_cases hl : s.follower.conf = .lost
  · rw [confRise_of_lost hl]
    exact le_rfl
  · by_cases hle : s.follower.counter + 8 ≤ 255
    · have halerts := alerts_warnRise s s.follower.counter (s.follower.counter + 8)
      have htables : (setConf (warnRise s s.follower.counter (s.follower.counter + 8)) (s.follower.counter + 8)
          (confOf (s.follower.counter + 8)) s.follower.run).tables = s.tables := by simp [setConf]
      rw [confRise_within hl hle, warningsLeft_of_kept hl, warningsLeft_of_kept (confOf_ne_lost _), htables]
      change (warnRise s _ _).handler.alerts.length + (if s.follower.counter + 8 < _ then 1 else 0) ≤ _
      split_ifs at halerts ⊢ <;> omega
    · obtain ⟨-, hconf, -, -⟩ := confRise_beyond_lost hl (not_le.mp hle)
      have hnone : warningsLeft (confRise s 8) = 0 := if_neg fun h => h.1 hconf
      have halerts := alerts_warnRise s s.follower.counter 255
      have hsame : (confRise s 8).handler = (warnRise s s.follower.counter 255).handler := by
        rw [confRise_beyond hl (not_le.mp hle)]
        split
        · rw [(finishPlay_keeps _).2.2.2.1]
          rfl
        · rfl
      rw [hnone, hsame, warningsLeft_of_kept hl]
      split_ifs at halerts ⊢ <;> omega

theorem alerts_misses (n : Nat) (s : State) : (misses n s).handler.alerts.length ≤ s.handler.alerts.length + warningsLeft s := by
  induction n generalizing s with
  | zero => exact Nat.le_add_right _ _
  | succ n ih => exact (ih (miss s)).trans (alerts_miss s)

theorem length_closePassed (s : State) : (closePassed s).handler.alerts.length ≤ s.handler.alerts.length + 1 := by
  refine (alerts_misses _ _).trans (Nat.add_le_add_left ?_ _)
  unfold warningsLeft
  split
  · exact le_rfl
  · exact Nat.zero_le _

theorem length_announce (found : Conf) (s : State) : (announce found s).handler.alerts.length ≤ s.handler.alerts.length + 1 := by
  unfold announce
  split
  · exact Nat.le_succ _
  · exact length_postAlert _ _

theorem length_syncClock (s : State) (tOn : PartTime) (x : Pos) :
    (syncClock s tOn x).handler.alerts.length ≤ s.handler.alerts.length + 1 := by
  unfold syncClock
  split
  · exact Nat.le_succ _
  · exact length_reanchor _ _ _ _

theorem syncCounted_handler (s : State) (p : Point) (e : Int) : (syncCounted s p e).handler = s.handler := by
  have hm : (matchCounted s p e).handler = s.handler := by
    unfold matchCounted confMatch
    split
    · simp
    · simp [setConf]
  unfold syncCounted
  split
  · exact hm
  · exact hm

theorem length_hardSync (s : State) (tOn : PartTime) (p : Point) (e : Int) :
    (hardSync s tOn p e).handler.alerts.length ≤ s.handler.alerts.length + 3 := by
  have hclosed := length_closePassed (syncMoved s tOn p e)
  have hannounced := length_announce s.follower.conf (openReached (closePassed (syncMoved s tOn p e)))
  have hsync := length_syncClock (syncCounted s p e) tOn p.pos
  have hopened : (openReached (closePassed (syncMoved s tOn p e))).handler = (closePassed (syncMoved s tOn p e)).handler := by simp
  have hmoved : (syncMoved s tOn p e).handler = (syncClock (syncCounted s p e) tOn p.pos).handler := by simp [syncMoved]
  rw [hopened] at hannounced
  rw [hmoved] at hclosed
  rw [syncCounted_handler] at hsync
  rw [hardSync_eq]
  omega

end Machine

end Sys2Proof
end

section
/-! PROOF. O48 settled: the hard sync of a wait, of a hold inside the phrase and into the next entry, and a hold ended without a point. -/

namespace Sys2Proof

namespace Machine

set_option Elab.async false

/-- Between `s` and `t` the entry begun in `u` has been synced to point `p` with deviation `e`. -/
def SyncedTo (s u : State) (tOn : PartTime) (p : Point) (e : Int) (t : State) : Prop :=
  let c := reanchor u tOn p.pos u.clock.period
  let above := pointsAbove u.follower.window p.pos
  p.steps.Nodup → c.clock.state = .moving → NonePassed (walkPast u p) above (position c) →
    MatchWritten s t p e ∧ MatchCounted s t ∧ t.clock = c.clock ∧ t.follower = withPoints u.follower above t ∧
      t.tables = s.tables ∧ t.ctl = s.ctl ∧ t.detector = s.detector ∧ t.prot = s.prot

/-- Play begins in `u` as `s` left it: score, tables and confidence stand, and the clock is not stopped. -/
structure BeginsFrom (s u : State) : Prop where
  store : u.store = s.store
  tables : u.tables = s.tables
  ctl : u.ctl = s.ctl
  detector : u.detector = s.detector
  prot : u.prot = s.prot
  counter : u.follower.counter = s.follower.counter
  conf : u.follower.conf = s.follower.conf
  run : u.follower.run = s.follower.run
  clock : u.clock.state ≠ .stopped

theorem OnlySends.keeps {u v : State} (h : OnlySends u v) : v.follower = u.follower ∧ v.store = u.store ∧ v.tables = u.tables ∧
    v.ctl = u.ctl ∧ v.detector = u.detector ∧ v.prot = u.prot := by
  unfold OnlySends at h
  rw [h]
  exact ⟨rfl, rfl, rfl, rfl, rfl, rfl⟩

theorem OnlySends.refl (s : State) : OnlySends s s := rfl

theorem alike_of_onlySends {u v : State} (h : OnlySends u v) : Alike u v := by
  unfold OnlySends at h
  rw [h]
  exact ⟨⟨.of_store rfl rfl, rfl⟩, rfl, rfl, rfl, rfl⟩

theorem hardSync_clock_of_sends {u v : State} (h : OnlySends u v) (hu : u.clock.state ≠ .stopped) (tOn : PartTime) (p : Point) (e : Int) :
    (hardSync v tOn p e).clock = (reanchor u tOn p.pos u.clock.period).clock := by
  rw [hardSync_clock, ← syncClock_of_running hu]
  exact ((alike_of_onlySends h).syncClock tOn p.pos).clock

theorem MatchWritten.congr {s s' t : State} {p : Point} {e : Int} (h : MatchWritten s t p e) (hs : s'.store = s.store) :
    MatchWritten s' t p e := by
  unfold MatchWritten stepRec at h ⊢
  rw [hs]
  exact h

/-- `x` follows `h` in the same event, with alerts posted and switches made. -/
def FollowsOn (h x : State) : Prop :=
  x.clock = h.clock ∧ x.follower = h.follower ∧ x.store = h.store ∧ x.tables = h.tables ∧ x.ctl = h.ctl ∧
    x.detector = h.detector ∧ x.prot = h.prot

theorem followsOn_waitingSwitches (h : State) : FollowsOn h (waitingSwitches h) := by simp [FollowsOn]

theorem followsOn_postPhrase (h : State) (i : EntryNo) : FollowsOn h (waitingSwitches (postPhrase h i .synced)) := by simp [FollowsOn]

/-- A sync made in `v`, which is `u` but for what waits to be sent. -/
theorem syncedTo_hardSync {s u v : State} (h : BeginsFrom s u) (hv : OnlySends u v) (tOn : PartTime) (p : Point) (e : Int)
    {x : State} (hx : FollowsOn (hardSync v tOn p e) x) : SyncedTo s u tOn p e (settle x) := by
  unfold SyncedTo
  intro c above hnodup hmoving hnone
  have hclock : (hardSync v tOn p e).clock = c.clock := hardSync_clock_of_sends hv h.clock tOn p e
  obtain ⟨hsc, hsf, hss, hst, hsl, hsd, hsp⟩ := hx
  have still : settle x = x := settle_of_not_held (by rw [hsc, hclock, hmoving]; nofun)
  obtain ⟨hvf, hvs, hvt, hvl, hvd, hvp⟩ := hv.keeps
  obtain ⟨hcount, hfol⟩ := hardSync_spec (alike_of_onlySends hv) hvf h.clock tOn p e hnone
  rw [still]
  refine ⟨(matchWritten_of_store hnodup (hss.trans (hardSync_store v tOn p e))).congr (hvs.trans h.store).symm, ?_, hsc.trans hclock, ?_, ?_, ?_, ?_, ?_⟩
  · unfold MatchCounted at hcount ⊢
    rw [hsf, ← h.conf, ← h.counter, ← h.run]
    exact hcount
  · unfold withPoints
    rw [hsf]
    exact hfol
  · rw [hst, (hardSync_keeps _ _ _ _).2.2.2.1]
    exact hvt.trans h.tables
  · rw [hsl, (hardSync_keeps _ _ _ _).2.2.1]
    exact hvl.trans h.ctl
  · rw [hsd, (hardSync_keeps _ _ _ _).2.2.2.2.1]
    exact hvd.trans h.detector
  · rw [hsp, (hardSync_keeps _ _ _ _).2.2.2.2.2.2.1]
    exact hvp.trans h.prot

/-! ### The three syncs -/

theorem beginsFrom_beginAt {s : State} (h : s.clock.state ≠ .stopped) (o x : Pos) : BeginsFrom s (beginAt s o x) := by
  have hf := beginAt_follower s o x
  exact ⟨by simp, by simp, by simp, by simp, by simp, by rw [hf], by rw [hf], by rw [hf], by simpa using h⟩

theorem syncWait_readable {s : State} {o : Onset} {i : EntryNo} {p : Point} {rest : List Point} (hc : s.follower.current = some i)
    (hr : readable s i = true) (hp : pointsFrom s i s.clock.x0 0 = p :: rest) : syncWait s o =
      settle (waitingSwitches (postPhrase (hardSync (beginAt s s.clock.x0 s.clock.x0) o.time p (p.pos - s.clock.x0)) i .synced)) := by
  rw [syncWait, hc]
  dsimp only
  rw [if_pos hr, hp]

/-- The PHRASE alert of a synced wait stands whatever follows it. -/
theorem phrase_mem_syncedWait {s : State} (o x : Pos) (tOn : PartTime) (p : Point) (e : Int) (i : EntryNo)
    (hroom : s.handler.alerts.length < 13) : .phrase i (planEntry s i).start .synced s.partTime ∈
      (settle (waitingSwitches (postPhrase (hardSync (beginAt s o x) tOn p e) i .synced))).handler.alerts := by
  have hlen := length_hardSync (beginAt s o x) tOn p e
  rw [show (beginAt s o x).handler = s.handler by simp] at hlen
  have hmem := phrase_mem_of_evolves (i := i) (m := .synced) (hlen.trans_lt (by omega))
    ((evolves_waitingSwitches _).trans (evolves_settle _))
  have hplan : planEntry (hardSync (beginAt s o x) tOn p e) i = planEntry s i := by simp [planEntry]
  have htime : (hardSync (beginAt s o x) tOn p e).partTime = s.partTime := by simp
  rwa [hplan, htime] at hmem

theorem syncHold_in_phrase {s : State} {o : Onset} {p : Point} (hp : pointInCurrent s s.clock.x0 = some p) : syncHold s o =
    settle (hardSync (formStop (withPlay (dropHold s) .running)) o.time p (p.pos - s.clock.x0)) := by
  rw [syncHold]
  dsimp only
  rw [hp]
  rfl

/-- Next entry `i` begun at the hold, before its PHRASE alert. -/
def nextBegun (s : State) (i : EntryNo) : State :=
  withPlay (beginAt (entered (dropHold s) i) (onsetOrigin s s.clock.x0) s.clock.x0) .running

/-- The same with its PHRASE alert posted. -/
def nextAnnounced (s : State) (i : EntryNo) : State :=
  withPlay (postPhrase (beginAt (entered (dropHold s) i) (onsetOrigin s s.clock.x0) s.clock.x0) i .synced) .running

theorem onlySends_nextAnnounced (s : State) (i : EntryNo) : OnlySends (nextBegun s i) (nextAnnounced s i) := by
  unfold nextBegun nextAnnounced postPhrase
  generalize beginAt (entered (dropHold s) i) (onsetOrigin s s.clock.x0) s.clock.x0 = b
  have h := onlySends_postAlert b (.phrase i (planEntry b i).start .synced b.partTime)
  unfold OnlySends at h ⊢
  rw [h]
  rfl

theorem syncHold_into_next {s : State} {o : Onset} {i : EntryNo} {p : Point} (hc : pointInCurrent s s.clock.x0 = none)
    (he : atPhraseEnd s s.clock.x0 = true) (hn : nextIndex s = some i) (hr : nextReadable s i = true)
    (hp : pointInNext s i s.clock.x0 = some p) : syncHold s o =
      settle (waitingSwitches (hardSync (nextAnnounced s i) o.time p (p.pos - s.clock.x0))) := by
  rw [syncHold]
  dsimp only
  rw [hc, he, hn]
  dsimp only
  rw [if_pos hr, hp]
  rfl

theorem syncHold_into_next_none {s : State} {o : Onset} {i : EntryNo} (hc : pointInCurrent s s.clock.x0 = none)
    (he : atPhraseEnd s s.clock.x0 = true) (hn : nextIndex s = some i) (hr : nextReadable s i = true)
    (hp : pointInNext s i s.clock.x0 = none) : syncHold s o = finishPlay (releaseHold s) := by
  rw [syncHold]
  dsimp only
  rw [hc, he, hn]
  dsimp only
  rw [if_pos hr, hp]

theorem syncHold_unreadable {s : State} {o : Onset} {i : EntryNo} (hc : pointInCurrent s s.clock.x0 = none)
    (he : atPhraseEnd s s.clock.x0 = true) (hn : nextIndex s = some i) (hr : nextReadable s i = false) :
    syncHold s o = s.withFollower { s.follower with heldOnsets := s.follower.heldOnsets ++ [o] } := by
  rw [syncHold]
  dsimp only
  rw [hc, he, hn]
  exact if_neg (by rw [hr]; nofun)

theorem syncHold_finishes {s : State} {o : Onset} (hc : pointInCurrent s s.clock.x0 = none)
    (he : atPhraseEnd s s.clock.x0 = false ∨ nextIndex s = none) : syncHold s o = finishPlay (releaseHold s) := by
  rw [syncHold]
  dsimp only
  rw [hc]
  dsimp only
  split
  · rename_i h1 h2
    rcases he with h | h
    · rw [h] at h1; cases h1
    · rw [h] at h2; cases h2
  · rfl

theorem entered_state {s : State} (h : s.clock.state = .held) (j : EntryNo) : (entered s j).clock.state ≠ .stopped := by
  have hc : (makeCurrent s j).clock = s.clock := by simp
  unfold entered applyEntryTempo
  split
  · unfold changePeriod
    split
    · rename_i hst
      have : (makeCurrent s j).clock.state = .stopped := hst
      rw [hc, h] at this
      cases this
    · exact reanchor_not_stopped _ _ _ _
  · rw [hc, h]
    decide

/-- The tempo an entry carries is its period from its start on. -/
theorem entered_period {s : State} (h : s.clock.state = .held) {j : EntryNo} {q : Nat} (ht : (planEntry s j).tempo = some q) :
    (entered s j).clock.period = clampPeriod s q := by
  have hp : planEntry (makeCurrent s j) j = planEntry s j := by simp [planEntry]
  have hclamp : clampPeriod (makeCurrent s j) q = clampPeriod s q := by simp [clampPeriod]
  have hc : (makeCurrent s j).clock.state = .held := by
    have : (makeCurrent s j).clock = s.clock := by simp
    rw [this, h]
  rw [entered, applyEntryTempo, hp, ht]
  dsimp only
  rw [hclamp]
  have hheld : ((makeCurrent s j).withClock { (makeCurrent s j).clock with pendingTempo := none }).clock.state = .held := hc
  rw [changePeriod, hheld]
  exact reanchor_period rfl _ _ _

theorem nextBegun_follower (s : State) (i : EntryNo) : (nextBegun s i).follower = { (makeCurrent (dropHold s) i).follower with
    play := .running, origin := onsetOrigin s s.clock.x0, timer := none, checkHeld := false
    pointsCurrent := (nextBegun s i).follower.pointsCurrent, released := (nextBegun s i).follower.released
    stop := (nextBegun s i).follower.stop } := by
  have hb := beginAt_follower (entered (dropHold s) i) (onsetOrigin s s.clock.x0) s.clock.x0
  rw [entered_follower] at hb
  have hn : (nextBegun s i).follower =
      { (beginAt (entered (dropHold s) i) (onsetOrigin s s.clock.x0) s.clock.x0).follower with play := .running } := rfl
  rw [hn, hb]

theorem beginsFrom_nextBegun {s : State} (h : s.clock.state = .held) (i : EntryNo) : BeginsFrom s (nextBegun s i) := by
  have hf := nextBegun_follower s i
  have hclock : (nextBegun s i).clock = (entered (dropHold s) i).clock := by simp [nextBegun, withPlay]
  exact ⟨by simp [nextBegun, withPlay, entered], by simp [nextBegun, withPlay, entered], by simp [nextBegun, withPlay, entered],
    by simp [nextBegun, withPlay, entered], by simp [nextBegun, withPlay, entered], by rw [hf]; rfl, by rw [hf]; rfl, by rw [hf]; rfl,
    by rw [hclock]; exact entered_state (s := dropHold s) h i⟩

theorem length_entered (s : State) (j : EntryNo) : (entered s j).handler.alerts.length ≤ s.handler.alerts.length + 1 := by
  have hh : (makeCurrent s j).handler = s.handler := by simp
  unfold entered applyEntryTempo
  split
  · unfold changePeriod
    split
    · rw [State.withClock_handler, State.withClock_handler, hh]
      exact Nat.le_succ _
    · have := length_reanchor ((makeCurrent s j).withClock { (makeCurrent s j).clock with pendingTempo := none })
        ((makeCurrent s j).withClock { (makeCurrent s j).clock with pendingTempo := none }).partTime
        (position ((makeCurrent s j).withClock { (makeCurrent s j).clock with pendingTempo := none }))
        (clampPeriod (makeCurrent s j) ‹Nat›)
      rwa [State.withClock_handler, hh] at this
  · rw [hh]
    exact Nat.le_succ _

/-- The PHRASE alert of the next entry stands whatever follows it. -/
theorem phrase_mem_nextAnnounced {s t : State} {i : EntryNo} (hroom : s.handler.alerts.length < 15)
    (ht : Evolves (nextAnnounced s i) t) : .phrase i (planEntry s i).start .synced s.partTime ∈ t.handler.alerts := by
  let b := beginAt (entered (dropHold s) i) (onsetOrigin s s.clock.x0) s.clock.x0
  have hb : b.handler = (entered (dropHold s) i).handler := by simp [b]
  have hlen : b.handler.alerts.length < 16 := by
    rw [hb]
    exact (length_entered (dropHold s) i).trans_lt (Nat.add_lt_add_right hroom 1)
  have hmem := phrase_mem_of_evolves (i := i) (m := .synced) hlen ((evolves_withPlay _ _).trans ht)
  have hp : planEntry b i = planEntry s i := by simp [b, planEntry, entered]
  have htime : b.partTime = s.partTime := by simp [b, entered]
  rwa [hp, htime] at hmem

theorem atPhraseEnd_true {s : State} {x : Pos} (h : atPhraseEnd s x = true) : ∃ e, phraseEnd s = some e ∧ e ≤ x := by
  unfold atPhraseEnd at h
  split at h
  · rename_i e he
    exact ⟨e, he, of_decide_eq_true h⟩
  · cases h

theorem before_phraseEnd {s : State} {x : Pos} (h : atPhraseEnd s x = false) (e : Pos) (he : phraseEnd s = some e) : x < e := by
  rw [atPhraseEnd, he] at h
  exact not_le.mp (of_decide_eq_false h)

theorem finishPlay_of_ending {s : State} (h : s.follower.play = .ending) : finishPlay s = s := by rw [finishPlay, h]

theorem formStop_eq (s : State) : formStop s = s.withFollower { s.follower with stop := (formStop s).follower.stop } := by
  unfold formStop
  split <;> rfl

/-- A hold released inside the phrase, and a FINISH. -/
theorem finishPlay_released {s r : State} (h : r = (s.withClock { s.clock with state := .moving, t0 := s.partTime }).withFollower
      { s.follower with
        play := .running, timer := none, released := s.clock.x0 :: s.follower.released, stop := r.follower.stop })
    (hf : s.follower.finish = .none) : finishPlay r = (s.withClock { s.clock with state := .moving, t0 := s.partTime }).withFollower
      { s.follower with
        play := .running, timer := none, released := s.clock.x0 :: s.follower.released
        finish := if s.follower.next.isSome then .held else .pending, stop := (finishPlay r).follower.stop } := by
  generalize r.follower.stop = st at h
  have hplay : r.follower.play = .running := by rw [h]; rfl
  have hfin : r.follower.finish = .none := by rw [h]; exact hf
  have hformed : finishPlay r = formStop (r.withFollower { r.follower with
      finish := if r.follower.next.isSome then .held else .pending }) :=
    (finishPlay_of_playing (.inr (.inl hplay))).trans (if_neg (not_not.mpr hfin))
  have heq := formStop_eq (r.withFollower { r.follower with finish := if r.follower.next.isSome then .held else .pending })
  rw [← hformed] at heq
  generalize (finishPlay r).follower.stop = st' at heq ⊢
  rw [heq, h]
  rfl

/-- Settles O48: the onset in a wait, in a hold with a point and without, and the cutoff. -/
theorem onsetsAndCutoffsEndWaitsAndHolds : Obligations.OnsetsAndCutoffsEndWaitsAndHolds := by
  unfold Obligations.OnsetsAndCutoffsEndWaitsAndHolds
  refine ⟨fun s o htakes hreach hheld => ?_, fun s k => ?_⟩
  · intro x t held syncs
    have hsyncs (u : State) (p : Point) (h : SyncedTo s u o.time p (p.pos - x) t) : syncs u p := h
    have hstopped : s.clock.state ≠ .stopped := by rw [hheld]; decide
    refine ⟨fun i hp hc => ?waiting, fun hp => ?holding⟩
    case waiting =>
      have ht : t = syncWait s o := by
        refine (deliverOnset_of_taken htakes).trans ?_
        rw [takeOnset, hp]
        exact if_pos hreach
      refine ⟨fun hr => ?_, fun p rest hr hpts => ?_⟩
      · rw [ht, syncWait, hc]
        exact if_neg (by rw [hr]; nofun)
      · intro u
        have ht' := ht.trans (syncWait_readable hc hr hpts)
        have hf := beginAt_follower s x x
        have begins : BeginsFrom s u := beginsFrom_beginAt hstopped x x
        refine ⟨hsyncs u p ?_, by simp [u], ?_, ?_, ?_, ?_, fun hroom => ?_⟩
        · rw [ht']
          exact syncedTo_hardSync begins (.refl _) _ _ _ (followsOn_postPhrase _ _)
        · exact (congrArg Follower.play hf).trans (if_neg (lt_irrefl _))
        · exact congrArg Follower.origin hf
        · exact congrArg Follower.timer hf
        · exact (congrArg Follower.current hf).trans hc
        · rw [ht']
          exact phrase_mem_syncedWait s.clock.x0 s.clock.x0 o.time p _ i hroom
    case holding =>
      have ht : t = syncHold s o := by
        refine (deliverOnset_of_taken htakes).trans ?_
        rw [takeOnset, hp]
        exact if_pos hreach
      refine ⟨fun p hpoint => ?_, fun hpoint => ⟨fun i he hn => ⟨fun hr => ?_, fun hr p hnext => ?_, fun hr hnext => ?_⟩, fun he hle hfin => ?_,
        fun he hn => ?_⟩⟩
      · intro u
        have hu : u = formStop (withPlay (dropHold s) .running) := rfl
        have huf := formStop_follower (withPlay (dropHold s) .running)
        have hucl : u.clock = s.clock := by simp [u]
        have ht' : t = settle (hardSync u o.time p (p.pos - x)) := ht.trans (syncHold_in_phrase hpoint)
        have begins : BeginsFrom s u := ⟨by simp [u], by simp [u], by simp [u], by simp [u], by simp [u], by rw [hu, huf]; rfl,
          by rw [hu, huf]; rfl, by rw [hu, huf]; rfl, by rw [hucl]; exact hstopped⟩
        refine ⟨hsyncs u p ?_, fun hmoving => ?_⟩
        · rw [ht']
          exact syncedTo_hardSync begins (.refl _) _ _ _ ⟨rfl, rfl, rfl, rfl, rfl, rfl, rfl⟩
        · have hclock := hardSync_clock_of_sends (.refl u) begins.clock o.time p (p.pos - x)
          rw [ht', settle_of_not_held (by rw [hclock, hmoving]; nofun)]
          simp [u]
      · exact ht.trans (syncHold_unreadable hpoint he hn hr)
      · intro u
        have ht' := ht.trans (syncHold_into_next hpoint he hn hr hnext)
        have hf := nextBegun_follower s i
        have begins := beginsFrom_nextBegun hheld i
        have hclock : u.clock = (entered (dropHold s) i).clock := by
          change (nextBegun s i).clock = _
          simp [nextBegun, withPlay]
        refine ⟨hsyncs u p ?_, ?_, ?_, ?_, fun htempo => ?_, fun q htempo => ?_, fun hroom => ?_⟩
        · rw [ht']
          exact syncedTo_hardSync begins (onlySends_nextAnnounced s i) _ _ _ (followsOn_waitingSwitches _)
        · exact congrArg Follower.current hf
        · exact congrArg Follower.next hf
        · exact congrArg Follower.origin hf
        · rw [hclock, entered_of_no_tempo (s := dropHold s) htempo]
          simp
        · rw [hclock]
          exact entered_period (s := dropHold s) hheld htempo
        · rw [ht']
          exact phrase_mem_nextAnnounced (hroom.trans (by decide))
            ((evolves_hardSync _ _ _ _).trans ((evolves_waitingSwitches _).trans (evolves_settle _)))
      · exact ht.trans (syncHold_into_next_none hpoint he hn hr hnext)
      · obtain ⟨hrel, -⟩ := releaseHold_in_phrase hheld (before_phraseEnd he) hle
        rw [ht.trans (syncHold_finishes hpoint (.inl he))]
        exact finishPlay_released hrel hfin
      · obtain ⟨e, hend, hle⟩ := atPhraseEnd_true he
        have hrel := releaseHold_of_no_next hend hle hn
        rw [ht, syncHold_finishes hpoint (.inr hn), hrel]
        exact finishPlay_of_ending rfl
  · intro listening
    have hlisten : listens s = true ↔ listening := by simp [listens, listening]
    refine ⟨fun h => ?_, fun hl hp => ?_⟩
    · refine if_neg fun hboth => ?_
      obtain ⟨h1, h2⟩ := Bool.and_eq_true_iff.mp hboth
      rcases h with h | h
      · exact h (hlisten.mp h1)
      · exact h (of_decide_eq_true h2)
    · have ht : deliverCutoff s k = releaseHold s := if_pos (by rw [hlisten.mpr hl, hp]; rfl)
      rw [ht]
      refine ⟨fun hheld hin hle => ⟨_, (releaseHold_in_phrase hheld hin hle).1⟩, fun e he hle =>
        ⟨fun j hj => begunAtHold_releaseHold he hle hj, fun hn => releaseHold_of_no_next he hle hn⟩⟩

end Machine

end Sys2Proof
end

section
/-! PROOF. Timers and silence (O50): the lead-in with its miss, the hold timer, the end of play, the pending mode. -/

namespace Sys2Proof

namespace Machine

set_option Elab.async false

/-! ### The lead-in (R116, R110) -/

/-- A miss of an entry that runs leaves it running, with the entry, the origin and the clock as they were. -/
theorem confRise_running {s : State} (hp : s.follower.play = .running) (n : Nat) :
    (confRise s n).follower.play = .running ∧ (confRise s n).follower.origin = s.follower.origin ∧
      (confRise s n).follower.timer = s.follower.timer ∧ (confRise s n).follower.current = s.follower.current := by
  by_cases hl : s.follower.conf = .lost
  · rw [confRise_of_lost hl]
    exact ⟨hp, rfl, rfl, rfl⟩
  · by_cases hn : s.follower.counter + n ≤ 255
    · have hf : (warnRise s s.follower.counter (s.follower.counter + n)).follower = s.follower := by simp
      rw [confRise_within hl hn, setConf, hf]
      exact ⟨hp, rfl, rfl, rfl⟩
    · rw [(confRise_beyond_follower hl (not_le.mp hn) (.inl (by rw [playing, hp]; rfl))).1]
      exact ⟨hp, rfl, rfl, rfl⟩

theorem confRise_counter {s : State} (hl : s.follower.conf ≠ .lost) (n : Nat) :
    (confRise s n).follower.counter = min 255 (s.follower.counter + n) := by
  by_cases hn : s.follower.counter + n ≤ 255
  · rw [confRise_within hl hn]
    exact (min_eq_right hn).symm
  · rw [(confRise_beyond_lost hl (not_le.mp hn)).1, min_eq_left (not_le.mp hn).le]

/-- The lead-in of a FRESH pickup that runs out: the entry has begun, then a miss is counted. -/
theorem expireLeadIn_fresh {s : State} (h : s.detector.fresh = true) :
    expireLeadIn s = settle (announce s.follower.conf (confRise (endWait s .fellBack) 8)) := if_pos h

theorem expireLeadIn_stale {s : State} (h : s.detector.fresh = false) : expireLeadIn s = endWait s .fellBack :=
  if_neg (by rw [h]; nofun)

theorem timerExpired_of_due {s : State} {u : PartTime} (h : s.follower.timer = some u) (hu : 0 ≤ tdiff s.partTime u) :
    timerExpired s = true := by
  rw [timerExpired, h]
  exact decide_eq_true hu

/-! ### Silence (R121) -/

theorem isEmpty_heldKeys (v : Vector Nat 61) : (heldKeys v).isEmpty = true ↔ ∀ k, vget v k = 0 := by
  rw [List.isEmpty_iff, List.eq_nil_iff_forall_not_mem]
  exact forall_congr' fun k => by rw [mem_heldKeys, Nat.pos_iff_ne_zero, not_not]

theorem silent_iff (s : State) : silent s = true ↔ ∀ d, queue s d = [] ∧ ∀ k, vget (s.sched.holds.get d) k = 0 := by
  simp only [silent, List.all_eq_true, Bool.and_eq_true, isEmpty_heldKeys]
  simp only [List.isEmpty_iff]
  exact ⟨fun h d => h d (mem_divisionAll d), fun h d _ => h d⟩

theorem raiseHighest_downQueue (s : State) (x : Pos) (t : PartTime) : (raiseHighest s x t).relay.downQueue = s.relay.downQueue := by
  simp only [raiseHighest]
  split
  · exact postAlert_downQueue _ _
  · rfl

theorem stopClock_downQueue (s : State) (zero : Bool) : (stopClock s zero).relay.downQueue = s.relay.downQueue := by
  simp only [stopClock, riseAtStop]
  split
  · rfl
  · exact raiseHighest_downQueue _ _ _

/-- The end of play in silence. -/
theorem endPlay_spec (s : State) :
    (endPlay s).clock = { stoppedClock s with beats := s.clock.beats + BitVec.ofNat 32 (stopCrossings s) } ∧
      (endPlay s).handler = ((stopAlerts s ++ [Alert.ended s.follower.current (s.clock.beats + BitVec.ofNat 32 (stopCrossings s))
        s.partTime]).foldl postAlert s).handler ∧ (endPlay s).follower = resting s.follower := by
  obtain ⟨hclock, hhandler⟩ := stopClock_spec s false
  refine ⟨?_, ?_, ?_⟩
  · have : (endPlay s).clock = (stopClock s false).clock := by simp [endPlay]
    rw [this, hclock]
    rfl
  · have hbeats : (stopClock s false).clock.beats = s.clock.beats + BitVec.ofNat 32 (stopCrossings s) := by rw [hclock]; rfl
    have hquiet : (discardWalks (idleFollower (stopClock s false))).handler = ((stopAlerts s).foldl postAlert s).handler := by
      rw [← hhandler]; simp
    rw [endPlay, hbeats, List.foldl_append]
    exact postAlert_handler_congr hquiet _
  · have : (endPlay s).follower = (idleFollower (stopClock s false)).follower := by simp [endPlay]
    rw [this]
    simp [idleFollower, resting]

/-- Settles O50: the lead-in, the hold timer, the silence after the end, the pending mode. -/
theorem timersAndSilenceMovePlayOn : Obligations.TimersAndSilenceMovePlayOn := by
  unfold Obligations.TimersAndSilenceMovePlayOn
  intro s hr
  refine ⟨fun i u hp hu hdue hheld hc hn hle _ hlen hdur => ?leadIn, fun u hp hu hdue => ?hold, fun hp => ⟨fun hsilent => ?ends, fun hsounds => ?sounds⟩,
    fun m hm => ⟨fun hempty => ?takes, fun hnot => ?waits⟩⟩
  case leadIn =>
    have hexec : exec .leadInExpiry s = .next (expireLeadIn s) :=
      exec_of_due (act := expireLeadIn s) rfl (by rw [leadInDue, hp, timerExpired_of_due hu hdue]; rfl) hr
    obtain ⟨hplay, horigin, htimer, hcur, hclock⟩ := endWait_runs .fellBack hc hn hheld hle hlen hdur
    have hphrase := phrase_mem_endWait hc .fellBack
    have frame := entryFrame_endWait s .fellBack
    refine ⟨expireLeadIn s, hexec, (evolves_expireLeadIn s).sameScoreAndTables (by simp), ?_⟩
    by_cases hfresh : s.detector.fresh = true
    · obtain ⟨hplay', horigin', htimer', hcur'⟩ := confRise_running hplay 8
      have hkeep : (announce s.follower.conf (confRise (endWait s .fellBack) 8)).clock = (endWait s .fellBack).clock := by simp
      have hmiss : expireLeadIn s = announce s.follower.conf (confRise (endWait s .fellBack) 8) :=
        (expireLeadIn_fresh hfresh).trans (settle_of_not_held (by rw [hkeep, hclock]; nofun))
      rw [hmiss, announce_follower, hkeep]
      refine ⟨hplay', horigin'.trans horigin, htimer'.trans htimer, hcur'.trans hcur, hclock, fun hroom => ?_, fun h => absurd hfresh (by rw [h]; nofun),
        fun _ hl _ => ?_⟩
      · exact ((evolves_confRise _ _).trans (evolves_announce _ _)).handler.mem _ (hphrase hroom)
      · rw [confRise_counter (by rw [frame.conf]; exact hl), frame.counter]
    · have hstale : s.detector.fresh = false := Bool.eq_false_iff.mpr hfresh
      rw [expireLeadIn_stale hstale]
      exact ⟨hplay, horigin, htimer, hcur, hclock, hphrase, fun _ => ⟨frame.counter, frame.conf⟩, fun h => absurd h hfresh⟩
  case hold =>
    have hexec : exec .holdTimerExpiry s = .next (releaseHold s) :=
      exec_of_due (act := releaseHold s) rfl (by rw [holdTimerDue, hp, timerExpired_of_due hu hdue]; rfl) hr
    refine ⟨fun hheld hin hle => ?_, fun e he hle hn => ?_, fun e j he hle hj => ?_⟩
    · obtain ⟨heq, habove⟩ := releaseHold_in_phrase hheld hin hle
      exact ⟨releaseHold s, hexec, heq, habove⟩
    · rw [hexec, releaseHold_of_no_next he hle hn]
    · exact ⟨releaseHold s, hexec, begunAtHold_releaseHold he hle hj⟩
  case ends =>
    have hexec : exec .endingToIdle s = .next (endPlay s) :=
      exec_of_due (act := endPlay s) rfl (by rw [endingDue, hp, (silent_iff s).mpr hsilent]; rfl) hr
    obtain ⟨hclock, hhandler, hfollower⟩ := endPlay_spec s
    refine ⟨endPlay s, hexec, (evolves_endPlay s).sameScoreAndTables (by simp), by simp, by simp, hfollower, ⟨hclock, hhandler⟩, ?_, ?_⟩
    · have hsched : (idleFollower (stopClock s false)).sched = s.sched := by simp
      rw [endPlay, (postAlert_keeps _ _).2.2.2.2.2.2.2.2.1, discardWalks, State.withSched_sched, hsched]
    · exact (postAlert_downQueue _ _).trans (stopClock_downQueue s false)
  case sounds =>
    refine exec_of_not_due (act := endPlay s) rfl (Bool.eq_false_iff.mpr fun hdue => ?_)
    obtain ⟨-, hsilent⟩ := Bool.and_eq_true_iff.mp hdue
    obtain ⟨d, hd⟩ := hsounds
    obtain ⟨hq, hz⟩ := (silent_iff s).mp hsilent d
    rcases hd with h | ⟨k, h⟩
    · exact h hq
    · exact h (hz k)
  case takes =>
    have hact : applyPendingMode s = enterMode s m := by rw [applyPendingMode, hm]
    have hexec : exec .pendingModeEffect s = .next (applyPendingMode s) :=
      exec_of_due (act := applyPendingMode s) rfl (by rw [pendingModeDue, hm, hempty]; rfl) hr
    rw [hact] at hexec
    exact ⟨enterMode s m, hexec, (evolves_enterMode s m).sameScoreAndTables (by simp), by simp, by simp, by simp, enterMode_follower s m,
      fun hmerge => (enterMode_marks hmerge).2⟩
  case waits =>
    exact exec_of_not_due (act := applyPendingMode s) rfl (by rw [pendingModeDue, hnot, Bool.and_false])

end Machine

end Sys2Proof
end

section
/-! PROOF. Entries that follow one another (O49): the registration switches that wait on an entry's finishing, the entry that becomes current
at a phrase end, the engagement of the next. -/

namespace Sys2Proof

namespace Machine

set_option Elab.async false

/-! ### Registration switches (R47, R143) -/

theorem lessWithdrawn_congr {s t : State} (hp : t.prot = s.prot) (ht : t.tables = s.tables) (b : BitVec 48) :
    lessWithdrawn t b = lessWithdrawn s b := by
  have hl : ∀ d, latched t d = latched s d := fun d => by simp [latched, hp]
  have hw : ∀ n, withdrawn t n = withdrawn s n := fun n => by simp [withdrawn, stopEntry?, hp, ht, hl]
  simp [lessWithdrawn, hw]

/-- A switch made for entry `i`, the frames apart. -/
def SwitchSet (s t : State) (i : EntryNo) (k : SetNo) : Prop :=
  t.sched.active = some k ∧ t.sched.switched = some i ∧ t.sched.stopImage = lessWithdrawn s (vget s.tables.sets k)

theorem makeSwitch_set {s : State} {i : EntryNo} {k : SetNo} (h : (planEntry s i).registration = some k) :
    SwitchSet s (makeSwitch s i) i k := by
  unfold SwitchSet makeSwitch
  rw [h]
  dsimp only
  rw [setActive_sched]
  exact ⟨rfl, rfl, lessWithdrawn_congr rfl rfl _⟩

theorem entryBefore_succ {i j : EntryNo} (h : i.val = j.val + 1) : entryBefore i = some j := by
  rw [entryBefore, if_neg (by omega)]
  exact congrArg some (Fin.ext (by simp [h]))

theorem entryBefore_some {i j : EntryNo} (h : entryBefore i = some j) : i.val = j.val + 1 := by
  unfold entryBefore at h
  split at h
  · cases h
  · have := congrArg Fin.val (Option.some.inj h)
    simp only at this
    omega

/-- A switch whose entry before has finished is made. -/
theorem switchIfFinished_makes {s : State} {i j : EntryNo} (hij : i.val = j.val + 1) (hm : switchMade s i = false)
    (hf : finishedSounding s j = true) : switchIfFinished s i = makeSwitch s i := by
  rw [switchIfFinished, entryBefore_succ hij]
  exact if_pos (by rw [hm, hf]; rfl)

theorem switchIfFinished_waits {s : State} {i : EntryNo} (h : ∀ j : EntryNo, i.val = j.val + 1 → finishedSounding s j = false) :
    switchIfFinished s i = s := by
  unfold switchIfFinished
  split
  · rename_i j hj
    exact if_neg (by rw [h j (entryBefore_some hj), Bool.and_false]; nofun)
  · rfl

theorem finished_noActions {s : State} {j : EntryNo} (h : finishedSounding s j = true) : noActions s j = true :=
  (Bool.and_eq_true_iff.mp h).1

theorem noActions_iff (s : State) (i : EntryNo) : noActions s i = true ↔ NoActionsOf s i := by
  simp only [noActions, List.all_eq_true, decide_eq_true_eq]
  exact ⟨fun h d a ha => h d (mem_divisionAll d) a ha, fun h d _ a ha => h d a ha⟩

/-- An entry neither current nor engaged has finished once no action of it is queued. -/
theorem finished_of_past {s : State} {j : EntryNo} (hq : noActions s j = true) (hc : s.follower.current ≠ some j)
    (he : engagedIndex s ≠ some j) : finishedSounding s j = true := by
  rw [finishedSounding, hq, if_neg hc, if_neg he]
  rfl

theorem finished_of_current {s : State} {j : EntryNo} (hq : noActions s j = true) (hc : s.follower.current = some j)
    (hw : walkFinished s j s.sched.walkCurrent = true) : finishedSounding s j = true := by
  rw [finishedSounding, hq, if_pos hc, hw]
  rfl

theorem waitingSwitches_of_current {s : State} {i : EntryNo} (hc : s.follower.current = some i) (hn : s.follower.next = none)
    (hx : cancelled s = false) : waitingSwitches s = switchIfFinished s i := by
  have hf : (switchIfFinished s i).follower = s.follower := by simp
  have he : engagedIndex (switchIfFinished s i) = none := by rw [engagedIndex, hf, hc, hn]
  have hcur : currentSwitch s = switchIfFinished s i := by rw [currentSwitch, hx, hc]
  rw [waitingSwitches_eq, hcur, he]

theorem currentSwitch_keeps (s : State) : SameEntries s (currentSwitch s) ∧ SameActions s (currentSwitch s) ∧
    (currentSwitch s).follower = s.follower ∧ (currentSwitch s).tables = s.tables ∧ (currentSwitch s).prot = s.prot := by
  unfold currentSwitch
  split
  · exact ⟨.of_frame (by simp) (by simp) (by simp), switchIfFinished_actions s _, by simp, by simp, by simp⟩
  · exact ⟨.of_frame rfl rfl rfl, .refl s, rfl, rfl, rfl⟩

theorem waitingSwitches_of_engaged {s : State} {i : EntryNo} (he : engagedIndex s = some i) :
    waitingSwitches s = switchIfFinished (currentSwitch s) i := by
  have h := (currentSwitch_keeps s).1.engagedIndex
  rw [waitingSwitches_eq, h, he]

/-- The switch made for the current entry, if any, is not one at or above the next. -/
theorem switchMade_currentSwitch {s : State} {i j : EntryNo} (hc : s.follower.current = some j) (hij : i.val = j.val + 1)
    (hm : switchMade s i = false) : switchMade (currentSwitch s) i = false := by
  have made (u : State) (hu : u.sched.switched = s.sched.switched) : switchMade u i = false := by
    rw [switchMade, hu]; exact hm
  unfold currentSwitch
  split
  · rename_i c hcur
    obtain rfl := Option.some.inj (hcur.symm.trans hc)
    unfold switchIfFinished
    split
    · split
      · unfold makeSwitch
        split
        · rw [switchMade, setActive_sched]
          exact decide_eq_false (by omega)
        · exact hm
      · exact hm
    · exact hm
  · exact hm

/-- A switch that waits on the entry before the current one is made. -/
theorem switchedTo_current {s w : State} {i j : EntryNo} {k : SetNo} (ht : w.tables = s.tables) (hp : w.prot = s.prot)
    (hi : w.sched.stopImage = s.sched.stopImage) (hij : j.val = i.val + 1) (hreg : (planEntry s j).registration = some k)
    (hc : w.follower.current = some j) (hn : w.follower.next = none) (hx : cancelled w = false) (hm : switchMade w j = false)
    (hf : finishedSounding w i = true) : SwitchedTo s (waitingSwitches w) j k := by
  have heq : waitingSwitches w = makeSwitch w j := (waitingSwitches_of_current hc hn hx).trans (switchIfFinished_makes hij hm hf)
  have hregw : (planEntry w j).registration = some k := by rw [planEntry, ht]; exact hreg
  obtain ⟨ha, hs, himage⟩ := makeSwitch_set hregw
  have hmark := stopMarked_waitingSwitches w
  unfold StopMarked at hmark
  rw [hi] at hmark
  refine ⟨by rw [heq, ha], by rw [heq, hs], ?_, hmark⟩
  rw [heq, himage, lessWithdrawn_congr hp ht, ht]

/-- A switch that waits on the current entry, for the engaged next one, is made. -/
theorem switchedTo_engaged {s w : State} {i j : EntryNo} {k : SetNo} (ht : w.tables = s.tables) (hp : w.prot = s.prot)
    (hi : w.sched.stopImage = s.sched.stopImage) (hij : j.val = i.val + 1) (hreg : (planEntry s j).registration = some k)
    (hc : w.follower.current = some i) (he : engagedIndex w = some j) (hm : switchMade w j = false)
    (hf : finishedSounding w i = true) : SwitchedTo s (waitingSwitches w) j k := by
  obtain ⟨hentries, hactions, -, htables, hprot⟩ := currentSwitch_keeps w
  have hfin : finishedSounding (currentSwitch w) i = true := by
    rw [hentries.finishedSounding (by rw [hactions]) (by rw [hactions]) (by rw [hactions]) (by rw [hactions])]
    exact hf
  have heq : waitingSwitches w = makeSwitch (currentSwitch w) j :=
    (waitingSwitches_of_engaged he).trans (switchIfFinished_makes hij (switchMade_currentSwitch hc hij hm) hfin)
  have hregw : (planEntry (currentSwitch w) j).registration = some k := by rw [planEntry, htables, ht]; exact hreg
  obtain ⟨ha, hs, himage⟩ := makeSwitch_set hregw
  have hmark := stopMarked_waitingSwitches w
  unfold StopMarked at hmark
  rw [hi] at hmark
  refine ⟨by rw [heq, ha], by rw [heq, hs], ?_, hmark⟩
  rw [heq, himage, lessWithdrawn_congr (hprot.trans hp) (htables.trans ht), htables, ht]

/-! ### The next entry at the phrase end (R104) -/

theorem nextIndex_succ {s : State} {i j : EntryNo} (hc : s.follower.current = some i) (hj : nextIndex s = some j) :
    j.val = i.val + 1 ∧ entryNo? (i.val + 1) = some j := by
  unfold nextIndex at hj
  rw [hc] at hj
  dsimp only at hj
  split at hj
  · refine ⟨?_, hj⟩
    unfold entryNo? at hj
    split at hj
    · exact (congrArg Fin.val (Option.some.inj hj)).symm
    · cases hj
  · cases hj

/-- The clock of an entry that becomes current on the run, its tempo a period change there. -/
theorem entered_clock_on_run {s : State} {j : EntryNo} (hm : s.clock.state = .moving)
    (hs : (planEntry s j).tempo ≠ none → ∀ st, s.follower.stop = some st → position s < st.pos) : (entered s j).clock =
      match (planEntry s j).tempo with
      | none => s.clock
      | some p => { s.clock with
          t0 := s.partTime, x0 := position s, period := clampPeriod s p, pendingTempo := none
          highest := max s.clock.highest (position s), beats := s.clock.beats + BitVec.ofNat 32 (crossings s (position s)) } := by
  have hp : planEntry (makeCurrent s j) j = planEntry s j := by simp [planEntry]
  cases ht : (planEntry s j).tempo with
  | none => rw [entered_of_no_tempo ht]; simp
  | some p =>
    let v := (makeCurrent s j).withClock { s.clock with pendingTempo := none }
    have hv : (makeCurrent s j).withClock { (makeCurrent s j).clock with pendingTempo := none } = v := by simp [v]
    have hperiod : clampPeriod (makeCurrent s j) p = clampPeriod s p := by simp [clampPeriod]
    have htime : v.partTime = s.partTime := by simp [v]
    have hpos : position v = position s := by rw [position, position, htime]; rfl
    rw [entered, applyEntryTempo, hp, ht]
    dsimp only
    rw [hv, hperiod, changePeriod_moving (s := v) hm rfl (by rw [hpos]; exact hs (by rw [ht]; nofun)), raiseHighest_clock, htime, hpos]
    rfl

/-- An entry that becomes current on the run is begun with the clock as it runs. -/
theorem enterEntry_on_run {s : State} {j : EntryNo} (h : ¬ChoirStarts s j) (hm : (entered s j).clock.state = .moving) (x : Pos) :
    enterEntry s j x = waitingSwitches (postPhrase (beginAt (entered s j) (nextOrigin s j x) x) j .organ) := by
  have hc : (postPhrase (beginAt (entered s j) (nextOrigin s j x) x) j .organ).clock = (entered s j).clock := by simp
  rw [enterEntry_organ (.inl h), beginOrgan, resumeClock, hc, hm]

theorem entered_sched (s : State) (j : EntryNo) : (entered s j).sched = (makeCurrent s j).sched := by simp [entered]

/-! ### The engagement of the next entry (R102) -/

theorem catchPartHead_some {s : State} {d : Division} {lift : Pos} {p : CatchPart} {r : EntryNo × Pos × Nat × StepNo}
    (h : catchPartHead s d lift p = some r) : r.1 = p.entry ∧ originOf s p.entry ≠ none := by
  unfold catchPartHead at h
  split at h
  · rename_i o ho
    refine ⟨?_, by rw [ho]; nofun⟩
    split at h
    · obtain ⟨x, -, rfl⟩ := Option.map_eq_some_iff.mp h
      rfl
    · cases h
  · cases h

theorem originOf_of_no_next {s : State} (h : s.follower.next = none) {i : EntryNo} (ho : originOf s i ≠ none) :
    s.follower.current = some i := by
  unfold originOf at ho
  split at ho
  · assumption
  · rw [h] at ho
    split at ho
    · rename_i h2; cases h2
    · exact absurd rfl ho

/-- The state of an engagement, before the switches that wait. -/
def engagedState (s : State) (g : Engaged) : State :=
  formStop (formLocks ((s.withFollower { s.follower with next := some g, pointsNext := some 0 }).withSched
    { s.sched with walkNext := some 0 }))

theorem engageNext_of_due {s : State} {g : Engaged} (h : engageDue s = some g) : engageNext s = waitingSwitches (engagedState s g) := by
  rw [engageNext, h]
  rfl

theorem engagedState_follower (s : State) (g : Engaged) : (engagedState s g).follower = { s.follower with
    next := some g, pointsNext := some 0, lockSet := (engagedState s g).follower.lockSet
    stop := (engagedState s g).follower.stop } := by
  rw [engagedState, formStop_follower]
  rfl

theorem engagedState_sched (s : State) (g : Engaged) : (engagedState s g).sched = { s.sched with walkNext := some 0 } := by
  rw [engagedState, (formStop_keeps _).2.2.2.2.2.2.2.2.2.1]
  rfl

theorem engagedState_keeps (s : State) (g : Engaged) : SameNotes s (engagedState s g) ∧ (engagedState s g).prot = s.prot ∧
    (engagedState s g).ctl = s.ctl :=
  ⟨.of_store (by simp [engagedState]) (by simp [engagedState]), by simp [engagedState], by simp [engagedState]⟩

/-- The lock set of an engagement: the current list, and the next unless it is in a command in flight. -/
theorem engagedState_locks {s : State} {g : Engaged} {i j : EntryNo} (hc : s.follower.current = some i) (hj : nextIndex s = some j) :
    (listLocked s (planEntry s i).list = true → listLocked (engagedState s g) (planEntry s i).list = true) ∧
      (involved s (planEntry s j).list = false → listLocked (engagedState s g) (planEntry s j).list = true) := by
  obtain ⟨-, hentry⟩ := nextIndex_succ hc hj
  have hlocks : (engagedState s g).follower.lockSet =
      ([(planEntry s i).list, (planEntry s j).list].eraseDups).filter fun l => listLocked s l || !involved s l := by
    rw [engagedState, formStop_follower]
    let z := (s.withFollower { s.follower with next := some g, pointsNext := some 0 }).withSched { s.sched with walkNext := some 0 }
    have he : engagedIndex z = some j := by
      have hz : z.follower.current = some i := hc
      rw [engagedIndex, hz]
      exact hentry
    have hcalled : calledLists z = [(planEntry s i).list, (planEntry s j).list].eraseDups := by
      have hz : z.follower.current = some i := hc
      rw [calledLists, hz, he]
      rfl
    change (calledLists z).filter _ = _
    rw [hcalled]
    rfl
  unfold listLocked at hlocks ⊢
  rw [hlocks]
  simp only [List.contains_iff_mem, List.mem_filter, List.mem_eraseDups, List.mem_cons, List.not_mem_nil, or_false, Bool.or_eq_true,
    Bool.not_eq_true']
  exact ⟨fun h => ⟨.inl trivial, .inl h⟩, fun h => ⟨.inr trivial, .inr h⟩⟩

/-- The current walk finished before an engagement is finished after it. -/
theorem walkFinished_engaged {s : State} {g : Engaged} {i : EntryNo} (hc : s.follower.current = some i) (hn : s.follower.next = none)
    (hr : readable (engagedState s g) i = true) {place : Option Nat} (h : walkFinished s i place = true) :
    walkFinished (engagedState s g) i place = true := by
  have hnotes := (engagedState_keeps s g).1
  have hf := engagedState_follower s g
  cases place with
  | none => cases h
  | some p =>
    simp only [walkFinished, Bool.and_eq_true, List.all_eq_true] at h ⊢
    obtain ⟨⟨hread, hhead⟩, hcatch⟩ := h
    refine ⟨⟨hr, by rw [hnotes.walkHead]; exact hhead⟩, fun d hd => ?_⟩
    split
    · rename_i j o at_ n hcatchHead
      refine decide_eq_true fun hji => ?_
      subst hji
      have hsched : (engagedState s g).sched.catchUp = s.sched.catchUp := by rw [engagedState_sched]
      unfold catchHead at hcatchHead
      rw [hsched] at hcatchHead
      have hs := hcatch d hd
      unfold catchHead at hs
      cases hcu : s.sched.catchUp.get d with
      | none => rw [hcu] at hcatchHead; cases hcatchHead
      | some c =>
        rw [hcu] at hcatchHead hs
        dsimp only at hcatchHead hs
        obtain ⟨part, hmem, hpart⟩ := List.exists_of_findSome?_eq_some hcatchHead
        have hentry : j = part.entry := (catchPartHead_some hpart).1
        have hsame : catchPartHead s d c.liftPos part = catchPartHead (engagedState s g) d c.liftPos part := by
          subst hentry
          have ho : originOf s part.entry = some s.follower.origin := if_pos hc
          have ho' : originOf (engagedState s g) part.entry = some s.follower.origin := by
            rw [originOf, hf]
            exact if_pos hc
          unfold catchPartHead
          rw [ho, ho', hread, hr]
          simp only [hnotes.entryChain, hnotes.keyed, hnotes.music, hnotes.pressPos]
        rw [← hsame] at hpart
        cases hfound : c.parts.findSome? (catchPartHead s d c.liftPos) with
        | none => exact absurd (List.findSome?_eq_none_iff.mp hfound part hmem) (by rw [hpart]; nofun)
        | some r =>
          rw [hfound] at hs
          obtain ⟨part', -, hpart'⟩ := List.exists_of_findSome?_eq_some hfound
          obtain ⟨he, ho⟩ := catchPartHead_some hpart'
          have := originOf_of_no_next hn ho
          rw [← he, hc] at this
          exact of_decide_eq_true hs (Option.some.inj this).symm
    · rfl

theorem engageDue_of_settled {s : State} {i j : EntryNo} {e : Pos}
    (hp : s.follower.play = .running ∨ s.follower.play = .gap ∨ s.follower.play = .holding) (hc : s.follower.current = some i)
    (hj : nextIndex s = some j) (he : phraseEnd s = some e) (hn : s.follower.next = none)
    (hstart : (planEntry s j).start ≠ .choirLed ∨ s.follower.mode = .steady)
    (hhold : e ∉ holdsOf s i s.follower.origin ∨ s.follower.mode = .steady ∨ gapOf (planEntry s j) = 0)
    (hlook : e + gapOf (planEntry s j) ≤ position s + 49152) : engageDue s = some
      { start := if (planEntry s j).start = .choirLed then .organLed else (planEntry s j).start
        origin := e + gapOf (planEntry s j) } := by
  have hplay : (playing s || decide (s.follower.play = .holding)) = true := by
    rw [playing]
    rcases hp with h | h | h <;> rw [h] <;> rfl
  have hkind : startKind s (planEntry s j) = if (planEntry s j).start = .choirLed then .organLed else (planEntry s j).start := by
    unfold startKind
    rcases hstart with h | h
    · rw [if_neg fun hx => h hx.1, if_neg h]
    · simp [h]
  have hchoir : startKind s (planEntry s j) ≠ .choirLed := by
    rw [hkind]
    split
    · decide
    · assumption
  have hsettled : settledOrigin s i j e = some { start := startKind s (planEntry s j), origin := e + gapOf (planEntry s j) } := by
    unfold settledOrigin
    dsimp only
    rw [if_neg hchoir, if_neg]
    rintro ⟨h1, h2, h3⟩
    rcases hhold with h | h | h
    · exact h (List.contains_iff_mem.mp h1)
    · exact h2 h
    · exact h3 h
  rw [engageDue, hc, hn, he, hj]
  dsimp only
  rw [if_pos hplay, hsettled, ← hkind]
  exact Option.filter_some_pos (decide_eq_true hlook)

/-- Settles O49: the origin reached, the phrase end passed, the next entry engaged. -/
theorem entriesFollowOneAnother : Obligations.EntriesFollowOneAnother := by
  unfold Obligations.EntriesFollowOneAnother
  refine fun s hr => ⟨fun hp ho => ?origin, fun i j e hc hj he => ⟨fun hp hm hpos hstop hstart => ?passes, fun hp hn hstart hhold hlook => ?engages⟩⟩
  case origin =>
    exact exec_of_due (act := withPlay s .running) rfl (by rw [gapOriginDue, hp]; exact decide_eq_true ho) hr
  case passes =>
    intro o x htempo
    obtain ⟨hij, -⟩ := nextIndex_succ hc hj
    have hplay : playing s = true := by
      rw [playing]
      rcases hp with h | h <;> rw [h] <;> rfl
    have hdue : phraseEndDue s = some (j, e) := by
      rw [phraseEndDue, hplay, hm, he, hj]
      exact if_pos ⟨hpos, hstop⟩
    have hnot : ¬ChoirStarts s j := fun ⟨h1, h2, h3⟩ => by
      rcases hstart with h | h | h
      · rw [h1] at h; cases h
      · exact h h2
      · exact h3 h
    have hclock := entered_clock_on_run hm htempo
    have hmoving : (entered s j).clock.state = .moving := by
      rw [hclock]
      cases (planEntry s j).tempo <;> exact hm
    let w := postPhrase (beginAt (entered s j) o e) j .organ
    have hwclock : (waitingSwitches w).clock = (entered s j).clock := by simp [w]
    have henter : settle (enterEntry s j e) = waitingSwitches w := by
      have hrun : enterEntry s j e = waitingSwitches w := enterEntry_on_run hnot hmoving e
      rw [hrun]
      exact settle_of_not_held (by rw [hwclock, hmoving]; nofun)
    have hexec : exec .phraseEndReached s = .next (waitingSwitches w) := by
      have h := exec_of_due (act := passPhraseEnd s) (row := .phraseEndReached) rfl (by rw [hdue]; rfl) hr
      rw [passPhraseEnd, hdue] at h
      exact h.trans (congrArg Host.Outcome.next henter)
    have hwf : w.follower = (beginAt (entered s j) o e).follower := by simp [w]
    have hf := beginAt_follower (entered s j) o e
    rw [entered_follower] at hf
    have htf : (waitingSwitches w).follower = (beginAt (entered s j) o e).follower := by rw [waitingSwitches_follower, hwf]
    have hactions := waitingSwitches_actions w
    have hwsched : w.sched = { (makeCurrent s j).sched with walkCurrent := some ((makeCurrent s j).sched.walkCurrent.getD 0) } := by
      have : w.sched = (beginAt (entered s j) o e).sched := by simp [w]
      rw [this, beginAt_sched, entered_sched]
    have evolves : Evolves s (waitingSwitches w) := henter ▸ (evolves_enterEntry s j e).trans (evolves_settle _)
    refine ⟨waitingSwitches w, hexec, evolves.sameScoreAndTables (by simp [w, entered]), hwclock.trans hclock, ?_, ?_, ?_, ?_, ?_, ?_, ?_, ?_, ?_, ?_,
      fun k hreg hmade hnone => ?_, fun hroom => ?_⟩
    · rw [htf, hf]; rfl
    · rw [htf, hf]
    · rw [htf, hf]; rfl
    · rw [htf, hf]
    · rw [htf, hf]
    · rw [htf, hf]; rfl
    · rw [htf, hf]; rfl
    · rw [hactions, hwsched]; rfl
    · rw [hactions, hwsched]; rfl
    · rw [htf, hf]
      change [(planEntry s j).list].filter (fun l => listLocked s l || !involved s l) = _
      split
      · rename_i h
        exact List.filter_cons_of_pos (by simpa using h)
      · rename_i h
        exact List.filter_cons_of_neg (by simpa using h)
    · refine switchedTo_current (w := w) (i := i) (by simp [w, entered]) (by simp [w, entered]) (by rw [hwsched]; rfl) hij hreg
        (by rw [hwf, hf]; rfl) (by rw [hwf, hf]; rfl) ?_ ?_ ?_
      · rw [cancelled, hwf, hf]
        dsimp only
        split <;> rfl
      · rw [switchMade, hwsched]
        exact hmade
      · refine finished_of_past ((noActions_iff w i).mpr fun d a ha => ?_) ?_ ?_
        · rw [queue, hwsched] at ha
          exact hnone d a ha
        · rw [hwf, hf]
          intro hx
          have hji : j = i := Option.some.inj hx
          rw [hji] at hij
          omega
        · rw [engagedIndex, hwf, hf]
          nofun
    · have hroom' : (beginAt (entered s j) o e).handler.alerts.length < 16 := by
        have : (beginAt (entered s j) o e).handler = (entered s j).handler := by simp
        rw [this]
        exact (length_entered s j).trans_lt (Nat.add_lt_add_right hroom 1)
      have hmem := phrase_mem_of_evolves (i := j) (m := .organ) hroom' (evolves_waitingSwitches _)
      have hp : planEntry (beginAt (entered s j) o e) j = planEntry s j := by simp [planEntry, entered]
      have ht : (beginAt (entered s j) o e).partTime = s.partTime := by simp [entered]
      rwa [hp, ht] at hmem
  case engages =>
    have hdue := engageDue_of_settled hp hc hj he hn hstart hhold hlook
    generalize hg : ({ start := if (planEntry s j).start = .choirLed then .organLed else (planEntry s j).start
                       origin := e + gapOf (planEntry s j) } : Engaged) = g at hdue
    have hexec : exec .nextEntryEngage s = .next (waitingSwitches (engagedState s g)) := by
      have h := exec_of_due (act := engageNext s) (row := .nextEntryEngage) rfl (by rw [hdue]; rfl) hr
      rwa [engageNext_of_due hdue] at h
    let w := engagedState s g
    have hwf := engagedState_follower s g
    have hwsched := engagedState_sched s g
    have htf : (waitingSwitches w).follower = w.follower := waitingSwitches_follower w
    have hactions := waitingSwitches_actions w
    obtain ⟨hij, hentry⟩ := nextIndex_succ hc hj
    obtain ⟨hli, hlj⟩ := engagedState_locks (g := g) hc hj
    have hread : listLocked s (planEntry s i).list = true := by
      rw [phraseEnd, hc] at he
      dsimp only at he
      split at he
      · assumption
      · cases he
    have locked (l : ListNo) (h : listLocked w l = true) : listLocked (waitingSwitches w) l = true := by
      rw [listLocked, htf]; exact h
    have evolves : Evolves s (waitingSwitches w) := by
      have := evolves_engageNext s
      rwa [engageNext_of_due hdue] at this
    refine ⟨waitingSwitches w, hexec, evolves.sameScoreAndTables (by simp [w, engagedState]), by simp [w, engagedState], ?_, ?_, ?_, ?_,
      locked _ (hli hread), fun h => locked _ (hlj h), fun k hreg hmade hnone hwalk => ?_⟩
    · rw [htf]
      exact hwf
    · rw [hactions, hwsched]
    · rw [hactions, hwsched]
    · rw [hactions, hwsched]
    · have hplan : planEntry w i = planEntry s i := (engagedState_keeps s g).1.planEntry i
      have hreadw : readable w i = true := by
        rw [readable, hplan]
        exact hli hread
      refine switchedTo_engaged (w := w) (i := i) (engagedState_keeps s g).1.tables (engagedState_keeps s g).2.1 (by rw [hwsched]) hij hreg
        (by rw [hwf]; exact hc) ?_ ?_ ?_
      · rw [engagedIndex, hwf]
        dsimp only
        rw [hc]
        exact hentry
      · rw [switchMade, hwsched]
        exact hmade
      · refine finished_of_current ((noActions_iff w i).mpr fun d a ha => ?_) (by rw [hwf]; exact hc) ?_
        · rw [queue, hwsched] at ha
          exact hnone d a ha
        · rw [hwsched]
          exact walkFinished_engaged hc hn hreadw hwalk

end Machine

end Sys2Proof
end

section
/-! PROOF. The leads and the first issuable action of a queue (O52, O53), and the issue of a release (O53). -/

namespace Sys2Proof

namespace Machine

set_option Elab.async false

/-! ### Leads (R50, R52) -/

theorem lessWithdrawn_getLsbD (s : State) (b : BitVec 48) (n : Fin 48) : (lessWithdrawn s b).getLsbD n.val =
    (b.getLsbD n.val && !(s.prot.escalated || latched s (vget s.tables.stops n).division)) := by
  rw [lessWithdrawn, bitsOf_getLsbD _ n.isLt, ← withdrawn_stop, Bool.eq_iff_iff]
  simp only [List.contains_iff_mem, List.mem_filter, mem_membersOf, Bool.and_eq_true]

theorem mem_stopsOf {s : State} {d : Division} {b : BitVec 48} {e : StopEntry} :
    e ∈ stopsOf s d b ↔ ∃ n : Fin 48, b.getLsbD n.val = true ∧ (vget s.tables.stops n).division = d ∧ vget s.tables.stops n = e := by
  have entry (n : Fin 48) : stopEntry? s n.val = some (vget s.tables.stops n) := by simp [stopEntry?, vget]
  simp only [stopsOf, List.mem_filter, List.mem_filterMap, mem_membersOf, decide_eq_true_eq]
  constructor
  · rintro ⟨⟨n, hn, he⟩, hd⟩
    have hlt : n < 48 := BitVec.lt_of_getLsbD hn
    obtain rfl := Option.some.inj ((entry ⟨n, hlt⟩).symm.trans he)
    exact ⟨⟨n, hlt⟩, hn, hd, rfl⟩
  · rintro ⟨n, hn, hd, rfl⟩
    exact ⟨⟨n.val, hn, entry n⟩, hd⟩

theorem largestOf_iff {s : State} {d : Division} {b : BitVec 48} {f : StopEntry → Nat} {m : Nat} :
    LargestOf s d b f m ↔ m = largest ((stopsOf s d b).map f) := by
  have mem (n : Fin 48) (hn : b.getLsbD n.val = true) (hd : (vget s.tables.stops n).division = d) :
      f (vget s.tables.stops n) ∈ (stopsOf s d b).map f := List.mem_map_of_mem (mem_stopsOf.mpr ⟨n, hn, hd, rfl⟩)
  constructor
  · rintro ⟨hle, hm⟩
    refine Nat.le_antisymm ?_ ?_
    · rcases hm with rfl | ⟨n, hn, hd, rfl⟩
      · exact Nat.zero_le _
      · exact le_largest (mem n hn hd)
    · rcases largest_mem ((stopsOf s d b).map f) with h0 | hx
      · rw [h0]; exact Nat.zero_le _
      · obtain ⟨e, he, hfe⟩ := List.mem_map.mp hx
        obtain ⟨n, hn, hd, rfl⟩ := mem_stopsOf.mp he
        rw [← hfe]
        exact hle n hn hd
  · rintro rfl
    refine ⟨fun n hn hd => le_largest (mem n hn hd), (largest_mem _).imp id fun hx => ?_⟩
    obtain ⟨e, he, hfe⟩ := List.mem_map.mp hx
    obtain ⟨n, hn, hd, rfl⟩ := mem_stopsOf.mp he
    exact ⟨n, hn, hd, hfe⟩

/-- A division that is not withdrawn draws all its stops of a set; one that is withdrawn, none. -/
theorem largestOf_lessWithdrawn {s : State} {d : Division} (b : BitVec 48) (f : StopEntry → Nat) (m : Nat)
    (h : (s.prot.escalated || latched s d) = false) : LargestOf s d (lessWithdrawn s b) f m ↔ LargestOf s d b f m := by
  have bit (n : Fin 48) (hd : (vget s.tables.stops n).division = d) : (lessWithdrawn s b).getLsbD n.val = b.getLsbD n.val := by
    rw [lessWithdrawn_getLsbD, hd, h, Bool.not_false, Bool.and_true]
  unfold LargestOf
  refine and_congr (forall_congr' fun n => ?_) (or_congr Iff.rfl (exists_congr fun n => ?_))
  · constructor
    · exact fun hx hn hd => hx (by rw [bit n hd]; exact hn) hd
    · exact fun hx hn hd => hx (by rw [← bit n hd]; exact hn) hd
  · constructor
    · exact fun ⟨hn, hd, hf⟩ => ⟨by rw [← bit n hd]; exact hn, hd, hf⟩
    · exact fun ⟨hn, hd, hf⟩ => ⟨by rw [bit n hd]; exact hn, hd, hf⟩

theorem stopsOf_withdrawn {s : State} {d : Division} (b : BitVec 48) (h : (s.prot.escalated || latched s d) = true) :
    stopsOf s d (lessWithdrawn s b) = [] := by
  refine List.eq_nil_iff_forall_not_mem.mpr fun e he => ?_
  obtain ⟨n, hn, hd, -⟩ := mem_stopsOf.mp he
  rw [lessWithdrawn_getLsbD, hd, h, Bool.not_true, Bool.and_false] at hn
  cases hn

theorem stopsOf_empty (s : State) (d : Division) : stopsOf s d (lessWithdrawn s 0) = [] := by
  refine List.eq_nil_iff_forall_not_mem.mpr fun e he => ?_
  obtain ⟨n, hn, -, -⟩ := mem_stopsOf.mp he
  rw [lessWithdrawn_getLsbD] at hn
  simp at hn

/-- The set entry `i` is played with, by number (R52). -/
def namedSet (s : State) (i : EntryNo) : Option SetNo :=
  match (planEntry s i).registration with
  | some k => some k
  | none => s.sched.active

theorem entrySet_eq (s : State) (i : EntryNo) : entrySet s i = (namedSet s i).elim 0 (vget s.tables.sets) := by
  unfold entrySet activeSet namedSet
  generalize (planEntry s i).registration = r
  generalize s.sched.active = active
  cases r <;> cases active <;> rfl

/-- Division `d` draws no stop (R46). -/
def Undrawn (s : State) (d : Division) : Prop := s.prot.escalated = true ∨ s.prot.faults.get d ≠ none

theorem leadIs_def (s : State) (d : Division) (i : EntryNo) (x : Int) : LeadIs s d i x ↔
    ∃ m : Nat, x = ((s.tables.chamber.get d + m : Nat) : Int) ∧ (Undrawn s d ∨ namedSet s i = none → m = 0) ∧
      (¬Undrawn s d → ∀ k, namedSet s i = some k → LargestOf s d (vget s.tables.sets k) StopEntry.speechLead m) := Iff.rfl

theorem leadIs_iff {s : State} {d : Division} {i : EntryNo} {x : Int} : LeadIs s d i x ↔ x = pressLead s d i := by
  let m := largest ((stopsOf s d (lessWithdrawn s (entrySet s i))).map StopEntry.speechLead)
  have hlead : pressLead s d i = ((s.tables.chamber.get d + m : Nat) : Int) := by
    rw [pressLead, Nat.cast_add]
  have hw : Undrawn s d ↔ (s.prot.escalated || latched s d) = true := by
    rw [Bool.or_eq_true, latched, Option.isSome_iff_ne_none, Undrawn]
  have zero (h : Undrawn s d ∨ namedSet s i = none) : m = 0 := by
    rcases h with h | h
    · simp only [m, stopsOf_withdrawn _ (hw.mp h)]
      rfl
    · simp only [m, entrySet_eq, h, Option.elim_none, stopsOf_empty]
      rfl
  have drawn (h : ¬Undrawn s d) (k : SetNo) (hk : namedSet s i = some k) (n : Nat) :
      LargestOf s d (vget s.tables.sets k) StopEntry.speechLead n ↔ n = m := by
    rw [← largestOf_lessWithdrawn _ _ _ (Bool.eq_false_iff.mpr (mt hw.mpr h)), largestOf_iff]
    simp only [m, entrySet_eq, hk, Option.elim_some]
  rw [leadIs_def]
  constructor
  · rintro ⟨n, rfl, h0, hn⟩
    rw [hlead]
    by_cases h : Undrawn s d ∨ namedSet s i = none
    · rw [h0 h, zero h]
    · obtain ⟨hx, hy⟩ := not_or.mp h
      obtain ⟨k, hk⟩ := Option.ne_none_iff_exists'.mp hy
      rw [(drawn hx k hk n).mp (hn hx k hk)]
  · rintro rfl
    exact ⟨m, hlead, zero, fun hx k hk => (drawn hx k hk m).mpr rfl⟩

/-! ### The first issuable action (R134 to R136) -/

theorem pressDueAt_iff {s : State} {d : Division} {b : Action} {y : Int} :
    PressDueAt s d b y ↔ pressDueIn s d b = some y := by
  simp only [PressDueAt, leadIs_iff, pressDueIn, Option.map_eq_some_iff]
  constructor
  · rintro ⟨x, lead, hx, rfl, rfl⟩
    exact ⟨x, hx, rfl⟩
  · rintro ⟨x, hx, rfl⟩
    exact ⟨x, _, hx, rfl, rfl⟩

theorem least_le_iff (x : Int) (l : List Int) (z : Int) : least x l ≤ z ↔ x ≤ z ∨ ∃ y ∈ l, y ≤ z := by
  unfold least
  induction l generalizing x with
  | nil => simp
  | cons a l ih =>
    rw [List.foldl_cons, ih, min_le_iff, or_assoc]
    simp

theorem mem_dropWhile_ne {q : List Action} {a b : Action} (hb : b ≠ a) :
    b ∈ q.dropWhile (fun x => decide (x ≠ a)) ↔ StandsAfter q a b := by
  induction q with
  | nil =>
    constructor
    · nofun
    · rintro ⟨l, r, h, -⟩
      exact absurd h.symm (by simp)
  | cons x q ih =>
    by_cases hx : x = a
    · subst hx
      rw [List.dropWhile_cons_of_neg (by simp)]
      constructor
      · exact fun h => ⟨[], q, rfl, nofun, (List.mem_cons.mp h).resolve_left hb⟩
      · rintro ⟨l, r, h, hl, hr⟩
        cases l with
        | nil => exact List.mem_cons_of_mem _ ((List.cons.inj h).2 ▸ hr)
        | cons y l => exact absurd (List.mem_cons.mpr (.inl (List.cons.inj h).1)) hl
    · rw [List.dropWhile_cons_of_pos (by simpa using hx), ih]
      constructor
      · rintro ⟨l, r, rfl, hl, hr⟩
        exact ⟨x :: l, r, rfl, fun h => (List.mem_cons.mp h).elim (fun h => hx h.symm) hl, hr⟩
      · rintro ⟨l, r, h, hl, hr⟩
        cases l with
        | nil => exact absurd (List.cons.inj h).1 hx
        | cons y l => exact ⟨l, r, (List.cons.inj h).2, fun h => hl (List.mem_cons_of_mem _ h), hr⟩

theorem pressReady_iff {s : State} {d : Division} {a : Action} : pressReady s d a = true ↔
    (∃ y, PressDueAt s d a y ∧ (y ≤ 0 ∨ a.pos < s.clock.x0)) ∧
      ∀ u, a.waitOn = some u → (s.tables.gap : Int) ≤ tdiff s.partTime u := by
  simp only [pressReady, pressDue, Bool.and_eq_true, pressDueAt_iff]
  refine and_congr ?_ ?_
  · cases pressDueIn s d a <;> simp
  · cases a.waitOn <;> simp [withinGap]

theorem releaseHeld_iff {q : List Action} {a : Action} (ha : a.kind = .release) : releaseHeld q a = false ↔
    ∀ b ∈ q, b.kind = .press → ¬(b.step = a.step ∧ b.entry = a.entry) ∧
      ∀ h ∈ a.heldOver, ¬(h.step = b.step ∧ h.entry = b.entry) := by
  simp only [releaseHeld, List.any_eq_false, Bool.and_eq_true, Bool.or_eq_true, List.any_eq_true, decide_eq_true_eq, partners, ha,
    not_and, not_or, not_exists]
  refine forall₂_congr fun b _ => forall_congr' fun hb => and_congr ?_ Iff.rfl
  rw [hb]
  exact ⟨fun h hs he => h ⟨by nofun, hs.symm⟩ he.symm, fun h hs he => h hs.2.symm he.symm⟩

/-- A release is due by its own time, or by the gap ahead of a press that follows it (R135). -/
theorem releaseDue_iff {s : State} {d : Division} {a : Action} (ha : a.kind = .release) {x : Int} (hx : dueIn s a.pos = some x) :
    (∃ y, releaseDueIn s d a = some y ∧ (y ≤ 0 ∨ a.pos < s.clock.x0)) ↔
      (x - (s.tables.chamber.get d : Int) ≤ 0 ∨ a.pos < s.clock.x0 ∨
        ∃ b y, StandsAfter (queue s d) a b ∧ b.kind = .press ∧ (∃ k ∈ b.keys, k ∈ a.keys) ∧ PressDueAt s d b y ∧
          y - (s.tables.gap : Int) ≤ 0) := by
  have after_ (b : Action) (hb : b.kind = .press) :
      b ∈ (queue s d).dropWhile (fun x => decide (x ≠ a)) ↔ StandsAfter (queue s d) a b :=
    mem_dropWhile_ne fun h => by rw [h, ha] at hb; cases hb
  simp only [releaseDueIn, hx, Option.map_some, Option.some.injEq, exists_eq_left', least_le_iff, releaseLead, pulling, List.mem_map,
    List.mem_filterMap, List.mem_filter, Bool.and_eq_true, decide_eq_true_eq, List.any_eq_true, List.contains_iff_mem]
  rw [or_right_comm, ← or_assoc]
  refine or_congr Iff.rfl ⟨?_, ?_⟩
  · rintro ⟨z, ⟨y, ⟨b, ⟨hb, hk, hkeys⟩, hy⟩, rfl⟩, hz⟩
    exact ⟨b, y, (after_ b hk).mp hb, hk, hkeys, pressDueAt_iff.mpr hy, hz⟩
  · rintro ⟨b, y, hb, hk, hkeys, hy, hz⟩
    exact ⟨_, ⟨y, ⟨b, ⟨(after_ b hk).mpr hb, hk, hkeys⟩, pressDueAt_iff.mp hy⟩, rfl⟩, hz⟩

theorem releaseReady_iff {s : State} {d : Division} {a : Action} : releaseReady s d a = true ↔
    (∃ y, releaseDueIn s d a = some y ∧ (y ≤ 0 ∨ a.pos < s.clock.x0)) ∧ releaseHeld (queue s d) a = false := by
  simp only [releaseReady, Bool.and_eq_true, Bool.not_eq_true']
  refine and_congr ?_ Iff.rfl
  cases releaseDueIn s d a <;> simp

theorem issuable_iff (s : State) (d : Division) (a : Action) : Issuable s d a ↔ actionReady s d a = true := by
  unfold Issuable actionReady
  cases hk : a.kind with
  | press => exact pressReady_iff.symm
  | release =>
    rw [releaseReady_iff, releaseHeld_iff hk]
    refine and_congr ?_ Iff.rfl
    constructor
    · rintro ⟨x, hx, h⟩
      exact (releaseDue_iff hk hx).mpr h
    · rintro ⟨y, hy, h⟩
      obtain ⟨x, hx, -⟩ := Option.map_eq_some_iff.mp hy
      exact ⟨x, hx, (releaseDue_iff hk hx).mp ⟨y, hy, h⟩⟩

theorem firstIssuable_iff (s : State) (d : Division) (a : Action) : FirstIssuable s d a ↔ firstReady s d = some a := by
  simp only [FirstIssuable, issuable_iff, firstReady, List.find?_eq_some_iff_append, Bool.not_eq_true', Bool.not_eq_true]
  exact ⟨fun ⟨l, r, hq, ha, hl⟩ => ⟨ha, l, r, hq, hl⟩, fun ⟨ha, l, r, hq, hl⟩ => ⟨l, r, hq, ha, hl⟩⟩

theorem pressFirst_iff (s : State) (d : Division) (a : Action) :
    pressFirst s d = some a ↔ a.kind = .press ∧ FirstIssuable s d a := by
  rw [firstIssuable_iff, pressFirst, Option.filter_eq_some_iff, decide_eq_true_eq, and_comm]

theorem releaseFirst_iff (s : State) (d : Division) (a : Action) :
    releaseFirst s d = some a ↔ a.kind = .release ∧ FirstIssuable s d a := by
  rw [firstIssuable_iff, releaseFirst, Option.filter_eq_some_iff, decide_eq_true_eq, and_comm]

end Machine

end Sys2Proof
end

section
/-! PROOF. The issue of a release (O53): the hold counts it lowers, the key-up times it stamps, and the switch that waits on it. -/

namespace Sys2Proof

namespace Machine

set_option Elab.async false

/-! ### The keys of a release (R140) -/

theorem releaseKeys_holds (t : PartTime) (keys : List Key) (acc : Vector Nat 61 × Vector (Option PartTime) 61) (hn : keys.Nodup)
    (k : Key) : vget (keys.foldl (releaseKey t) acc).1 k = vget acc.1 k - if k ∈ keys then 1 else 0 := by
  induction keys generalizing acc with
  | nil => rfl
  | cons x keys ih =>
    obtain ⟨hx, hkeys⟩ := List.nodup_cons.mp hn
    rw [List.foldl_cons, ih _ hkeys, releaseKey]
    dsimp only
    rw [vget_vset]
    by_cases h : x = k
    · subst h
      simp [hx]
    · have hk : ¬k = x := fun he => h he.symm
      simp [hk]

theorem releaseKeys_keyUps (t : PartTime) (keys : List Key) (acc : Vector Nat 61 × Vector (Option PartTime) 61) (hn : keys.Nodup)
    (k : Key) : vget (keys.foldl (releaseKey t) acc).2 k =
      if k ∈ keys ∧ vget acc.1 k = 1 then some t else vget acc.2 k := by
  induction keys generalizing acc with
  | nil => simp
  | cons x keys ih =>
    obtain ⟨hx, hkeys⟩ := List.nodup_cons.mp hn
    rw [List.foldl_cons, ih _ hkeys, releaseKey]
    dsimp only
    rw [vget_vset]
    by_cases h : x = k
    · subst h
      rw [if_neg fun hc => hx hc.1]
      by_cases h1 : vget acc.1 x = 1 <;> simp [h1]
    · have hk : ¬k = x := fun he => h he.symm
      rw [if_neg hk]
      by_cases h1 : vget acc.1 x = 1
      · simp [h1, vget_vset, hk]
      · simp [h1, hk]

theorem issueRelease_sched (s : State) (d : Division) (a : Action) : (issueRelease s d a).sched =
    let moved := a.keys.foldl (releaseKey s.partTime) (s.sched.holds.get d, s.sched.keyUps.get d)
    { s.sched with
      queues := s.sched.queues.set d ((queue s d).erase a), holds := s.sched.holds.set d moved.1
      keyUps := s.sched.keyUps.set d moved.2 } := by
  simp [issueRelease, withHolds, withQueue]

theorem playImage_congr {s t : State} {d : Division} (h : t.sched.holds.get d = s.sched.holds.get d) :
    playImage t d = playImage s d := by
  rw [playImage, playImage, h]

theorem markIfChanged_marks {d : Division} {old : BitVec 64} {s : State} (h : playImage (markIfChanged d old s) d ≠ old) :
    .marker (.keys d) ∈ (markIfChanged d old s).relay.downQueue := by
  have hs : playImage s d ≠ old := by
    rwa [playImage_congr (t := markIfChanged d old s) (s := s) (by simp)] at h
  rw [markIfChanged, if_neg hs]
  exact markDue_mem _ _

/-! ### The switches that wait -/

/-- How far the switch record has come. -/
def switchRank (s : State) : Nat :=
  match s.sched.switched with
  | some i => i.val + 1
  | none => 0

theorem switchRank_le_of_not_made {s : State} {i : EntryNo} (h : switchMade s i = false) : switchRank s ≤ i.val := by
  unfold switchMade at h
  unfold switchRank
  split
  · rename_i j hj
    rw [hj] at h
    have := of_decide_eq_false h
    omega
  · exact Nat.zero_le _

/-- A switch that is made moves the record on. -/
theorem switchIfFinished_rank (s : State) (i : EntryNo) :
    switchIfFinished s i = s ∨ switchRank s < switchRank (switchIfFinished s i) := by
  unfold switchIfFinished
  split
  · split
    · rename_i h
      obtain ⟨hm, -⟩ := Bool.and_eq_true_iff.mp h
      unfold makeSwitch
      split
      · refine .inr ?_
        have hle := switchRank_le_of_not_made (by simpa using hm)
        rw [show switchRank (setActive _ _) = i.val + 1 by rw [switchRank, setActive_sched]; rfl]
        omega
      · exact .inl rfl
    · exact .inl rfl
  · exact .inl rfl

theorem waitingSwitches_rank (s : State) : waitingSwitches s = s ∨ switchRank s < switchRank (waitingSwitches s) := by
  have hcur : currentSwitch s = s ∨ switchRank s < switchRank (currentSwitch s) := by
    unfold currentSwitch
    split
    · exact switchIfFinished_rank s _
    · exact .inl rfl
  rw [waitingSwitches_eq]
  split
  · rename_i i hi
    rcases switchIfFinished_rank (currentSwitch s) i with h | h
    · rw [h]; exact hcur
    · rcases hcur with h1 | h1
      · rw [h1] at h ⊢; exact .inr h
      · exact .inr (h1.trans h)
  · exact hcur

/-- Where the switch record stands, no switch was made. -/
theorem waitingSwitches_same {s : State} (h : (waitingSwitches s).sched.switched = s.sched.switched) : waitingSwitches s = s :=
  (waitingSwitches_rank s).resolve_right fun hlt => by
    rw [switchRank, switchRank, h] at hlt
    exact absurd hlt (Nat.lt_irrefl _)

/-- With none engaged, the switch of the current entry waits on the entry before it. -/
theorem waitingSwitches_of_unfinished {s : State} {i : EntryNo} (hc : s.follower.current = some i) (hn : s.follower.next = none)
    (h : cancelled s = true ∨ ∀ j : EntryNo, i.val = j.val + 1 → ¬NoActionsOf s j) : waitingSwitches s = s := by
  have he : engagedIndex s = none := by rw [engagedIndex, hc, hn]
  by_cases hx : cancelled s = true
  · exact waitingSwitches_of_cancelled hx he
  · rw [waitingSwitches_of_current hc hn (Bool.eq_false_iff.mpr hx)]
    refine switchIfFinished_waits fun j hj => ?_
    exact Bool.eq_false_iff.mpr fun hf => h.resolve_left hx j hj ((noActions_iff s j).mp (finished_noActions hf))

theorem noActionsOf_congr {s t : State} (h : t.sched.queues = s.sched.queues) (i : EntryNo) : NoActionsOf t i ↔ NoActionsOf s i := by
  simp only [NoActionsOf, queue, h]

theorem engagedIndex_next {s : State} {i j : EntryNo} (hc : s.follower.current = some j) (hn : s.follower.next ≠ none)
    (hij : i.val = j.val + 1) : engagedIndex s = some i := by
  obtain ⟨g, hg⟩ := Option.ne_none_iff_exists'.mp hn
  rw [engagedIndex, hc, hg]
  dsimp only
  rw [entryNo?, dif_pos (by omega)]
  exact congrArg some (Fin.ext hij.symm)

/-- Settles O53: the counts and stamps key by key, then the switches through the entry that has finished. -/
theorem releasesLowerTheHoldCounts : Obligations.ReleasesLowerTheHoldCounts := by
  unfold Obligations.ReleasesLowerTheHoldCounts
  refine ⟨releaseFirst_iff, fun s d a hr hfirst hnodup => ?_⟩
  obtain ⟨hready, hkind⟩ := Option.filter_eq_some_iff.mp hfirst
  have hkind : a.kind = .release := of_decide_eq_true hkind
  have hmem : a ∈ queue s d := mem_of_firstReady hready
  have hact : actionReady s d a = true := List.find?_some hready
  have hheld : releaseHeld (queue s d) a = false := by
    rw [actionReady, hkind] at hact
    exact (releaseReady_iff.mp hact).2
  refine ⟨hmem, hkind, hheld, ?_⟩
  let w := issueRelease s d a
  have hexec : exec (.releaseIssue d) s = .next (waitingSwitches w) := by
    have h := exec_of_due (act := releaseNow s d) (row := .releaseIssue d) rfl (by rw [hfirst]; rfl) hr
    rwa [releaseNow, hfirst] at h
  have hws := issueRelease_sched s d a
  have hactions := waitingSwitches_actions w
  unfold SameActions at hactions
  have hwf : w.follower = s.follower := by simp [w]
  have hentries : SameEntries s w := .of_frame (by simp [w]) (by simp [w]) (congrArg unscored hwf)
  have hqueues : (waitingSwitches w).sched.queues = w.sched.queues := by rw [hactions]
  have hholds : (waitingSwitches w).sched.holds = w.sched.holds := by rw [hactions]
  have hkeyUps : (waitingSwitches w).sched.keyUps = w.sched.keyUps := by rw [hactions]
  have hcancelled : cancelled w = cancelled s := by rw [cancelled, cancelled, hwf, hws]
  have hmade (i : EntryNo) : switchMade w i = switchMade s i := by rw [switchMade, switchMade, hws]
  refine ⟨waitingSwitches w, hexec, by simp [w], by simp [w], by simp [w], by simp [w], by simp [w], by simp [w], by simp [w], ?_, ?_,
    ?_, ?_, ?_, ?_, ?_, ?_⟩
  · rw [queue, hqueues, hws]
    exact PerDiv.get_set_same _ _ _
  · intro e he
    rw [queue, hqueues, hholds, hkeyUps, hws]
    dsimp only
    rw [PerDiv.get_set, PerDiv.get_set, PerDiv.get_set, if_neg he, if_neg he, if_neg he]
    exact ⟨rfl, rfl, rfl⟩
  · intro k
    rw [hholds, hws]
    dsimp only
    rw [PerDiv.get_set_same, releaseKeys_holds _ _ _ hnodup]
  · intro k
    rw [hkeyUps, hws]
    dsimp only
    rw [PerDiv.get_set_same, releaseKeys_keyUps _ _ _ hnodup]
  · rw [playImage_congr (t := waitingSwitches w) (s := w) (by rw [hholds])]
    exact fun h => (evolves_waitingSwitches w).relay.mem _ (markIfChanged_marks h)
  · intro h
    rw [waitingSwitches_same (s := w) (by rw [h, hws]), hws]
    exact ⟨rfl, rfl⟩
  · intro i hc hn hwait
    rw [← hcancelled] at hwait
    rw [waitingSwitches_of_unfinished (s := w) (by rw [hwf]; exact hc) (by rw [hwf]; exact hn)
      (hwait.imp id fun h j hj => mt (noActionsOf_congr hqueues j).mpr (h j hj)), hws]
  · intro i j k hij hreg hm hnone
    have hnone : noActions w j = true := (noActions_iff w j).mpr ((noActionsOf_congr hqueues j).mp hnone)
    have hm : switchMade w i = false := (hmade i).trans hm
    constructor
    · intro hc hn hx
      refine switchedTo_current (w := w) (i := j) (by simp [w]) (by simp [w]) (by rw [hws]) hij hreg (by rw [hwf]; exact hc)
        (by rw [hwf]; exact hn) (hcancelled.trans hx) hm (finished_of_past hnone ?_ ?_)
      · rw [hwf, hc]
        intro h
        have := congrArg Fin.val (Option.some.inj h)
        omega
      · rw [engagedIndex, hwf, hc, hn]
        nofun
    · intro hc hn hwalk
      refine switchedTo_engaged (w := w) (i := j) (by simp [w]) (by simp [w]) (by rw [hws]) hij hreg (by rw [hwf]; exact hc)
        (engagedIndex_next (by rw [hwf]; exact hc) (by rw [hwf]; exact hn) hij) hm
        (finished_of_current hnone (by rw [hwf]; exact hc) ?_)
      rw [hentries.walkFinished (by rw [hws]), hws]
      exact hwalk

end Machine

end Sys2Proof
end

section
/-! PROOF. A press that is examined (O52): what the drop leaves of its queue, what its keys move, and how it is issued. -/

namespace Sys2Proof

namespace Machine

set_option Elab.async false

/-! ### The drop of a press (R137) -/

theorem partners_iff {a b : Action} : partners a b = true ↔ a.kind ≠ b.kind ∧ a.step = b.step ∧ a.entry = b.entry := by
  simp only [partners, Bool.and_eq_true, decide_eq_true_eq, and_assoc]

theorem partners_self (a : Action) : partners a a = false :=
  Bool.eq_false_iff.mpr fun h => (partners_iff.mp h).1 rfl

theorem holdsOver_iff {k : Key} {n : StepNo} {i : EntryNo} {b : Action} :
    holdsOver k n i b = true ↔ ∃ h ∈ b.heldOver, h.key = k ∧ h.step = n ∧ h.entry = i := by
  simp only [holdsOver, List.any_eq_true, Bool.and_eq_true, decide_eq_true_eq, and_assoc]

/-- The queue of a dropped press less its sounding, before its keys return. -/
def partnerDropped (q : List Action) (a : Action) : List Action :=
  ((q.erase a).map (keepHeld a)).filter fun b => !(partners a b && b.keys.isEmpty)

/-- An action to which key `k` of step `n` returns (R137). -/
def returnTo (n : StepNo) (i : EntryNo) (b : Action) (k : Key) : Action :=
  if holdsOver k n i b then
    match b.kind with
    | .press => { forgetHeld k b with keys := b.keys ++ [k] }
    | .release => forgetHeld k b
  else b

/-- An action to which the keys of step `n` return, each in turn. -/
def returnAll (n : StepNo) (i : EntryNo) (keys : List Key) (b : Action) : Action := keys.foldl (returnTo n i) b

theorem returnKey_eq (n : StepNo) (i : EntryNo) (q : List Action) (k : Key) :
    returnKey n i q k = q.map fun b => returnTo n i b k := rfl

theorem dropFrom_eq (q : List Action) (a : Action) :
    dropFrom q a = (partnerDropped q a).map (returnAll a.step a.entry a.keys) := by
  have h (keys : List Key) (p : List Action) :
      keys.foldl (returnKey a.step a.entry) p = p.map (returnAll a.step a.entry keys) := by
    induction keys generalizing p with
    | nil => exact (List.map_id p).symm
    | cons k keys ih =>
      rw [List.foldl_cons, ih, returnKey_eq, List.map_map]
      rfl
  exact h a.keys _

theorem returnTo_of_free {n : StepNo} {i : EntryNo} {b : Action} {k : Key} (h : holdsOver k n i b = false) :
    returnTo n i b k = b := by
  rw [returnTo, h]
  rfl

theorem returnAll_of_free {n : StepNo} {i : EntryNo} {keys : List Key} {b : Action} (h : ∀ k ∈ keys, holdsOver k n i b = false) :
    returnAll n i keys b = b := by
  induction keys with
  | nil => rfl
  | cons k keys ih =>
    rw [returnAll, List.foldl_cons, returnTo_of_free (h k List.mem_cons_self)]
    exact ih fun x hx => h x (List.mem_cons_of_mem _ hx)

/-- What a returned key leaves of an action. -/
theorem returnTo_frame (n : StepNo) (i : EntryNo) (b : Action) (k : Key) : (returnTo n i b k).kind = b.kind ∧
    (returnTo n i b k).step = b.step ∧ (returnTo n i b k).entry = b.entry ∧ (returnTo n i b k).pos = b.pos := by
  unfold returnTo
  split
  · split <;> exact ⟨by simp only [forgetHeld, *], rfl, rfl, rfl⟩
  · exact ⟨rfl, rfl, rfl, rfl⟩

theorem returnAll_frame (n : StepNo) (i : EntryNo) (keys : List Key) (b : Action) : (returnAll n i keys b).kind = b.kind ∧
    (returnAll n i keys b).step = b.step ∧ (returnAll n i keys b).entry = b.entry ∧ (returnAll n i keys b).pos = b.pos := by
  induction keys generalizing b with
  | nil => exact ⟨rfl, rfl, rfl, rfl⟩
  | cons k keys ih =>
    obtain ⟨h1, h2, h3, h4⟩ := ih (returnTo n i b k)
    obtain ⟨g1, g2, g3, g4⟩ := returnTo_frame n i b k
    exact ⟨h1.trans g1, h2.trans g2, h3.trans g3, h4.trans g4⟩

/-- Key `k` is a key of press `b`, and held over by it no longer. -/
def Returned (k : Key) (b : Action) : Prop := k ∈ b.keys ∧ ∀ h ∈ b.heldOver, h.key ≠ k

theorem returnTo_of_press {n : StepNo} {i : EntryNo} {b : Action} {k : Key} (hb : b.kind = .press) (h : holdsOver k n i b = true) :
    returnTo n i b k = { forgetHeld k b with keys := b.keys ++ [k] } := by
  rw [returnTo, if_pos h]
  simp only [hb]

theorem returned_returnTo {n : StepNo} {i : EntryNo} {b : Action} {k : Key} (hb : b.kind = .press) (h : holdsOver k n i b = true) :
    Returned k (returnTo n i b k) := by
  rw [returnTo_of_press hb h]
  refine ⟨List.mem_append_right _ (List.mem_singleton.mpr rfl), fun x hx => ?_⟩
  exact of_decide_eq_true (List.mem_filter.mp hx).2

/-- Another key's return leaves what key `k` has come to. -/
theorem returnTo_other {n : StepNo} {i : EntryNo} {b : Action} {k x : Key} (hb : b.kind = .press) :
    (Returned k b → Returned k (returnTo n i b x)) ∧
      (k ≠ x → holdsOver k n i b = true → holdsOver k n i (returnTo n i b x) = true) := by
  by_cases h : holdsOver x n i b = true
  · rw [returnTo_of_press hb h]
    refine ⟨fun ⟨hk, hh⟩ => ⟨List.mem_append_left _ hk, fun y hy => hh y (List.mem_filter.mp hy).1⟩, fun hne hk => ?_⟩
    obtain ⟨y, hy, hkey, hrest⟩ := holdsOver_iff.mp hk
    exact holdsOver_iff.mpr ⟨y, List.mem_filter.mpr ⟨hy, decide_eq_true (hkey ▸ hne)⟩, hkey, hrest⟩
  · rw [returnTo_of_free (Bool.eq_false_iff.mpr h)]
    exact ⟨id, fun _ => id⟩

theorem returnAll_settled {n : StepNo} {i : EntryNo} {keys : List Key} {b : Action} {k : Key} (hb : b.kind = .press)
    (h : Returned k b) : Returned k (returnAll n i keys b) := by
  induction keys generalizing b with
  | nil => exact h
  | cons x keys ih =>
    exact ih ((returnTo_frame n i b x).1.trans hb) ((returnTo_other hb).1 h)

/-- A key of a dropped press returns to the press that holds it over. -/
theorem returnAll_returned {n : StepNo} {i : EntryNo} {keys : List Key} {b : Action} {k : Key} (hb : b.kind = .press) (hk : k ∈ keys)
    (h : holdsOver k n i b = true) : Returned k (returnAll n i keys b) := by
  induction keys generalizing b with
  | nil => cases hk
  | cons x keys ih =>
    have hkind := (returnTo_frame n i b x).1.trans hb
    by_cases hx : k = x
    · subst hx
      exact returnAll_settled (keys := keys) (b := returnTo n i b k) hkind (returned_returnTo hb h)
    · exact ih hkind ((List.mem_cons.mp hk).resolve_left hx) ((returnTo_other hb).2 hx h)

theorem length_dropFrom_lt {q : List Action} {a : Action} (ha : a ∈ q) : (dropFrom q a).length < q.length := by
  rw [dropFrom_eq, List.length_map]
  have hle : (partnerDropped q a).length ≤ (q.erase a).length := by
    refine (List.length_filter_le _ _).trans (le_of_eq ?_)
    rw [List.length_map]
  have hpos := List.length_pos_of_mem ha
  have herase := List.length_erase_of_mem ha
  omega

theorem keepHeld_of_partner {a b : Action} (h : partners a b = true) :
    keepHeld a b = { b with keys := b.keys.filter fun k => b.heldOver.any fun h => decide (h.key = k) } := if_pos h

theorem keepHeld_of_other {a b : Action} (h : partners a b = false) : keepHeld a b = b := if_neg (by rw [h]; nofun)

theorem partners_keepHeld (a b : Action) : partners a (keepHeld a b) = partners a b := by
  unfold keepHeld
  split <;> rfl

theorem mem_partnerDropped {q : List Action} {a b : Action} : b ∈ partnerDropped q a ↔
    ∃ b0 ∈ q.erase a, b = keepHeld a b0 ∧ (partners a b0 = true → b.keys ≠ []) := by
  simp only [partnerDropped, List.mem_filter, List.mem_map]
  constructor
  · rintro ⟨⟨b0, hb0, rfl⟩, h⟩
    refine ⟨b0, hb0, rfl, fun hp hk => ?_⟩
    rw [partners_keepHeld, hp, hk] at h
    cases h
  · rintro ⟨b0, hb0, rfl, h⟩
    refine ⟨⟨b0, hb0, rfl⟩, ?_⟩
    rw [partners_keepHeld]
    cases hp : partners a b0 with
    | false => rfl
    | true => simpa using h hp

theorem partners_returnAll (a : Action) (n : StepNo) (i : EntryNo) (keys : List Key) (b : Action) :
    partners a (returnAll n i keys b) = partners a b := by
  obtain ⟨h1, h2, h3, -⟩ := returnAll_frame n i keys b
  rw [partners, partners, h1, h2, h3]

/-- An action that neither partners the dropped press nor holds a key of it over stays as it is. -/
theorem mem_dropFrom_of_other {q : List Action} {a b : Action} (hb : b ∈ q) (hne : b ≠ a) (hp : partners a b = false)
    (hh : ∀ k ∈ a.keys, holdsOver k a.step a.entry b = false) : b ∈ dropFrom q a := by
  rw [dropFrom_eq]
  refine List.mem_map.mpr ⟨b, mem_partnerDropped.mpr ⟨b, (List.mem_erase_of_ne hne).mpr hb, (keepHeld_of_other hp).symm, ?_⟩,
    returnAll_of_free hh⟩
  rw [hp]
  nofun

/-- The partner release of a dropped press that holds nothing of the press over keeps its held-over keys alone. -/
theorem mem_dropFrom_of_partner {q : List Action} {a b : Action} (hb : b ∈ q) (hp : partners a b = true)
    (hh : ∀ k, holdsOver k a.step a.entry b = false) (hk : (keepHeld a b).keys ≠ []) : keepHeld a b ∈ dropFrom q a := by
  have hne : b ≠ a := fun h => by
    rw [h, partners_self] at hp
    cases hp
  rw [dropFrom_eq]
  refine List.mem_map.mpr ⟨_, mem_partnerDropped.mpr ⟨b, (List.mem_erase_of_ne hne).mpr hb, rfl, fun _ => hk⟩,
    returnAll_of_free fun k _ => ?_⟩
  rw [keepHeld_of_partner hp]
  exact hh k

theorem of_mem_dropFrom_partner {q : List Action} {a b : Action} (hb : b ∈ dropFrom q a) (hp : partners a b = true)
    (hh : ∀ b ∈ q, partners a b = true → ∀ k, holdsOver k a.step a.entry b = false) :
    b.keys ≠ [] ∧ ∃ b0 ∈ q, partners a b0 = true ∧ b = keepHeld a b0 := by
  rw [dropFrom_eq] at hb
  obtain ⟨b1, hb1, rfl⟩ := List.mem_map.mp hb
  obtain ⟨b0, hb0, rfl, hk⟩ := mem_partnerDropped.mp hb1
  rw [partners_returnAll, partners_keepHeld] at hp
  have hmem := List.mem_of_mem_erase hb0
  have hfree : returnAll a.step a.entry a.keys (keepHeld a b0) = keepHeld a b0 := returnAll_of_free fun k _ => by
    rw [keepHeld_of_partner hp]
    exact hh b0 hmem hp k
  rw [hfree]
  exact ⟨hk hp, b0, hmem, hp, rfl⟩

/-- A later press that holds a key of the dropped press over has it for its own. -/
theorem mem_dropFrom_of_holder {q : List Action} {a b : Action} {k : Key} (ha : a.kind = .press) (hb : b ∈ q) (hk : k ∈ a.keys)
    (hne : b ≠ a) (hkind : b.kind = .press) (hh : holdsOver k a.step a.entry b = true) :
    ∃ b' ∈ dropFrom q a, b'.kind = .press ∧ b'.step = b.step ∧ b'.entry = b.entry ∧ b'.pos = b.pos ∧ Returned k b' := by
  have hp : partners a b = false := Bool.eq_false_iff.mpr fun h => (partners_iff.mp h).1 (ha.trans hkind.symm)
  obtain ⟨h1, h2, h3, h4⟩ := returnAll_frame a.step a.entry a.keys b
  rw [dropFrom_eq]
  refine ⟨_, List.mem_map.mpr ⟨b, mem_partnerDropped.mpr ⟨b, (List.mem_erase_of_ne hne).mpr hb, (keepHeld_of_other hp).symm, ?_⟩,
    rfl⟩, h1.trans hkind, h2, h3, h4, returnAll_returned hkind hk hh⟩
  rw [hp]
  nofun

/-! ### The keys of an issued press (R139) -/

/-- `b` is `b0`, with keys and held-over keys taken out at most. -/
def Slimmer (b b0 : Action) : Prop :=
  b.kind = b0.kind ∧ b.step = b0.step ∧ b.entry = b0.entry ∧ b.keys ⊆ b0.keys ∧ b.heldOver ⊆ b0.heldOver

theorem Slimmer.refl (b : Action) : Slimmer b b := ⟨rfl, rfl, rfl, List.Subset.refl _, List.Subset.refl _⟩

theorem Slimmer.trans {b b0 b1 : Action} (h1 : Slimmer b b0) (h2 : Slimmer b0 b1) : Slimmer b b1 := by
  obtain ⟨k1, s1, e1, y1, o1⟩ := h1
  obtain ⟨k2, s2, e2, y2, o2⟩ := h2
  exact ⟨k1.trans k2, s1.trans s2, e1.trans e2, List.Subset.trans y1 y2, List.Subset.trans o1 o2⟩

theorem slimmer_dropKey (k : Key) (b : Action) : Slimmer (dropKey k b) b :=
  ⟨rfl, rfl, rfl, List.filter_subset_self _, List.filter_subset_self _⟩

theorem Slimmer.holdsOver {b b0 : Action} (h : Slimmer b b0) {k : Key} {n : StepNo} {i : EntryNo}
    (h0 : holdsOver k n i b0 = false) : holdsOver k n i b = false := by
  obtain ⟨-, -, -, -, hheld⟩ := h
  refine Bool.eq_false_iff.mpr fun hb => Bool.eq_false_iff.mp h0 ?_
  obtain ⟨y, hy, hrest⟩ := holdsOver_iff.mp hb
  exact holdsOver_iff.mpr ⟨y, hheld hy, hrest⟩

theorem Slimmer.partners {b b0 : Action} (h : Slimmer b b0) (a : Action) : partners a b = partners a b0 := by
  obtain ⟨hk, hs, he, -, -⟩ := h
  rw [Machine.partners, Machine.partners, hk, hs, he]

/-- Queue `p` holds nothing but actions of `q`, keys taken out of them at most. -/
def SlimmerQueue (p q : List Action) : Prop := ∀ b ∈ p, ∃ b0 ∈ q, Slimmer b b0

theorem SlimmerQueue.trans {p q r : List Action} (h1 : SlimmerQueue p q) (h2 : SlimmerQueue q r) : SlimmerQueue p r := fun b hb => by
  obtain ⟨b0, hb0, hs0⟩ := h1 b hb
  obtain ⟨b1, hb1, hs1⟩ := h2 b0 hb0
  exact ⟨b1, hb1, hs0.trans hs1⟩

/-- No press of `q` holds key `k` of press `a` over. -/
def NoHolder (a : Action) (k : Key) (q : List Action) : Prop :=
  ∀ b ∈ q, b.kind = .press → holdsOver k a.step a.entry b = false

/-- No partner of `a` in `q` carries key `k`. -/
def NoPartnerKey (a : Action) (k : Key) (q : List Action) : Prop := ∀ b ∈ q, partners a b = true → k ∉ b.keys

theorem SlimmerQueue.noHolder {p q : List Action} (h : SlimmerQueue p q) {a : Action} {k : Key} (hq : NoHolder a k q) :
    NoHolder a k p := fun b hb hkind => by
  obtain ⟨b0, hb0, hs⟩ := h b hb
  obtain ⟨hk, -⟩ := id hs
  exact hs.holdsOver (hq b0 hb0 (hk.symm.trans hkind))

theorem SlimmerQueue.noPartnerKey {p q : List Action} (h : SlimmerQueue p q) {a : Action} {k : Key} (hq : NoPartnerKey a k q) :
    NoPartnerKey a k p := fun b hb hp hmem => by
  obtain ⟨b0, hb0, hs⟩ := h b hb
  have hp0 := (hs.partners a).symm.trans hp
  obtain ⟨-, -, -, hkeys, -⟩ := hs
  exact hq b0 hb0 hp0 (hkeys hmem)

theorem slimmerQueue_map {q : List Action} {c : Action → Bool} (k : Key) :
    SlimmerQueue (q.map fun b => if c b then dropKey k b else b) q := fun b hb => by
  obtain ⟨b0, hb0, rfl⟩ := List.mem_map.mp hb
  refine ⟨b0, hb0, ?_⟩
  split
  · exact slimmer_dropKey k b0
  · exact .refl b0

theorem capKey_slimmer (a : Action) (q : List Action) (k : Key) : SlimmerQueue (capKey a q k) q := by
  unfold capKey
  split <;> exact slimmerQueue_map k

theorem noHolder_iff {a : Action} {k : Key} {q : List Action} :
    NoHolder a k q ↔ (q.any fun b => decide (b.kind = .press) && holdsOver k a.step a.entry b) = false := by
  simp only [NoHolder, List.any_eq_false, Bool.and_eq_true, decide_eq_true_eq, not_and, Bool.not_eq_true]

/-- After a key has been taken out, no press holds it over. -/
theorem capKey_noHolder (a : Action) (q : List Action) (k : Key) : NoHolder a k (capKey a q k) := by
  by_cases h : NoHolder a k q
  · exact (capKey_slimmer a q k).noHolder h
  · rw [capKey, if_pos (by simpa using mt noHolder_iff.mpr h)]
    intro b hb _
    obtain ⟨b0, -, rfl⟩ := List.mem_map.mp hb
    by_cases h0 : holdsOver k a.step a.entry b0 = true
    · rw [if_pos h0]
      refine Bool.eq_false_iff.mpr fun hd => ?_
      obtain ⟨y, hy, hkey, -⟩ := holdsOver_iff.mp hd
      exact of_decide_eq_true (List.mem_filter.mp hy).2 hkey
    · rw [if_neg h0]
      exact Bool.eq_false_iff.mpr h0

/-- A key that no press holds over is taken out of the partner. -/
theorem capKey_noPartnerKey {a : Action} {q : List Action} {k : Key} (h : NoHolder a k q) : NoPartnerKey a k (capKey a q k) := by
  rw [capKey, if_neg (by rw [noHolder_iff.mp h]; nofun)]
  intro b hb hp
  obtain ⟨b0, -, rfl⟩ := List.mem_map.mp hb
  by_cases h0 : partners a b0 = true
  · rw [if_pos h0]
    exact fun hk => of_decide_eq_true (List.mem_filter.mp hk).2 rfl
  · rw [if_neg h0] at hp
    exact absurd hp h0

theorem pressKeys_of_room {a : Action} {acc : List Action × Vector Nat 61} {k : Key} (h : vget acc.2 k < 15) :
    pressKeys a acc k = (acc.1, vset acc.2 k (vget acc.2 k + 1)) := if_neg (by omega)

theorem pressKeys_of_full {a : Action} {acc : List Action × Vector Nat 61} {k : Key} (h : 15 ≤ vget acc.2 k) :
    pressKeys a acc k = (capKey a acc.1 k, acc.2) := if_pos h

theorem pressKeys_other {a : Action} {acc : List Action × Vector Nat 61} {k x : Key} (h : k ≠ x) :
    vget (pressKeys a acc x).2 k = vget acc.2 k := by
  unfold pressKeys
  split
  · rfl
  · dsimp only
    rw [vget_vset, if_neg h]

theorem pressKeys_slimmer (a : Action) (acc : List Action × Vector Nat 61) (k : Key) :
    SlimmerQueue (pressKeys a acc k).1 acc.1 := by
  unfold pressKeys
  split
  · exact capKey_slimmer a _ k
  · exact fun b hb => ⟨b, hb, .refl b⟩

theorem pressAll_slimmer (a : Action) (keys : List Key) (acc : List Action × Vector Nat 61) :
    SlimmerQueue (keys.foldl (pressKeys a) acc).1 acc.1 := by
  induction keys generalizing acc with
  | nil => exact fun b hb => ⟨b, hb, .refl b⟩
  | cons k keys ih => exact (ih _).trans (pressKeys_slimmer a acc k)

theorem pressAll_counts (a : Action) {keys : List Key} (acc : List Action × Vector Nat 61) (hn : keys.Nodup) (k : Key) :
    vget (keys.foldl (pressKeys a) acc).2 k = vget acc.2 k + if k ∈ keys ∧ vget acc.2 k < 15 then 1 else 0 := by
  induction keys generalizing acc with
  | nil => simp
  | cons x keys ih =>
    obtain ⟨hx, hkeys⟩ := List.nodup_cons.mp hn
    rw [List.foldl_cons, ih _ hkeys]
    by_cases h : k = x
    · subst h
      by_cases hroom : vget acc.2 k < 15
      · rw [pressKeys_of_room hroom]
        simp [hx, hroom]
      · rw [pressKeys_of_full (Nat.le_of_not_lt hroom)]
        simp [hroom]
    · rw [pressKeys_other h]
      simp [h]

theorem pressAll_of_room (a : Action) {keys : List Key} (acc : List Action × Vector Nat 61) (hn : keys.Nodup)
    (h : ∀ k ∈ keys, vget acc.2 k < 15) : (keys.foldl (pressKeys a) acc).1 = acc.1 := by
  induction keys generalizing acc with
  | nil => rfl
  | cons x keys ih =>
    obtain ⟨hx, hkeys⟩ := List.nodup_cons.mp hn
    have hroom : ∀ k ∈ keys, vget (pressKeys a acc x).2 k < 15 := fun k hk => by
      rw [pressKeys_other fun he : k = x => hx (he ▸ hk)]
      exact h k (List.mem_cons_of_mem _ hk)
    rw [List.foldl_cons, ih _ hkeys hroom, pressKeys_of_room (h x List.mem_cons_self)]

/-- A key whose count is full is taken out of the press's sounding. -/
theorem pressAll_capped (a : Action) {keys : List Key} (acc : List Action × Vector Nat 61) {k : Key} (hk : k ∈ keys)
    (h : 15 ≤ vget acc.2 k) : NoHolder a k (keys.foldl (pressKeys a) acc).1 ∧
      (NoHolder a k acc.1 → NoPartnerKey a k (keys.foldl (pressKeys a) acc).1) := by
  induction keys generalizing acc with
  | nil => cases hk
  | cons x keys ih =>
    rw [List.foldl_cons]
    by_cases hx : k = x
    · subst hx
      rw [pressKeys_of_full h]
      have slim := pressAll_slimmer a keys (capKey a acc.1 k, acc.2)
      exact ⟨slim.noHolder (capKey_noHolder a _ k), fun hno => slim.noPartnerKey (capKey_noPartnerKey hno)⟩
    · obtain ⟨h1, h2⟩ := ih (pressKeys a acc x) ((List.mem_cons.mp hk).resolve_left hx) (by rw [pressKeys_other hx]; exact h)
      exact ⟨h1, fun hno => h2 ((pressKeys_slimmer a acc x).noHolder hno)⟩

end Machine

end Sys2Proof
end

section
/-! PROOF. The first issuable press is dropped, held back or issued (O52). -/

namespace Sys2Proof

namespace Machine

set_option Elab.async false

/-! ### The wait for the gap (R138) -/

/-- A search that keeps one of the members it has seen. -/
def keepOne {α : Type} (pick : α → α → α) (acc : Option α) (u : α) : Option α :=
  match acc with
  | some v => some (pick v u)
  | none => some u

theorem foldl_keepOne_none {α : Type} {pick : α → α → α} {l : List α} {acc : Option α} :
    l.foldl (keepOne pick) acc = none ↔ l = [] ∧ acc = none := by
  induction l generalizing acc with
  | nil => simp
  | cons x l ih =>
    rw [List.foldl_cons, ih]
    cases acc <;> simp [keepOne]

theorem foldl_keepOne_some {α : Type} {pick : α → α → α} (hp : ∀ v u, pick v u = v ∨ pick v u = u) {l : List α} {acc : Option α} {u : α}
    (h : l.foldl (keepOne pick) acc = some u) : u ∈ l ∨ acc = some u := by
  induction l generalizing acc with
  | nil => exact .inr h
  | cons x l ih =>
    rcases ih h with h | h
    · exact .inl (List.mem_cons_of_mem _ h)
    · cases acc with
      | none => exact .inl (List.mem_cons.mpr (.inl (Option.some.inj h).symm))
      | some v =>
        have hu : pick v x = u := Option.some.inj h
        rcases hp v x with hv | hv
        · exact .inr (congrArg some (hv.symm.trans hu))
        · exact .inl (List.mem_cons.mpr (.inl (hu.symm.trans hv)))

/-- The later of two key-ups (R138). -/
def laterUp (v u : PartTime) : PartTime := if tdiff v u < 0 then u else v

theorem laterUp_or (v u : PartTime) : laterUp v u = v ∨ laterUp v u = u := by
  unfold laterUp
  split
  · exact .inr rfl
  · exact .inl rfl

/-- The key-ups of a press's keys that lie less than G back (R138). -/
def recentUps (s : State) (d : Division) (a : Action) : List PartTime :=
  a.keys.filterMap fun k => (vget (s.sched.keyUps.get d) k).filter (withinGap s)

theorem gapWait_eq (s : State) (d : Division) (a : Action) :
    gapWait s d a = (recentUps s d a).foldl (keepOne laterUp) none := by
  unfold gapWait recentUps
  congr 1
  funext acc u
  cases acc <;> rfl

theorem mem_recentUps {s : State} {d : Division} {a : Action} {u : PartTime} : u ∈ recentUps s d a ↔
    ∃ k ∈ a.keys, vget (s.sched.keyUps.get d) k = some u ∧ tdiff s.partTime u < (s.tables.gap : Int) := by
  simp only [recentUps, List.mem_filterMap, Option.filter_eq_some_iff, withinGap, decide_eq_true_eq]

/-- A press waits for the gap exactly when a key of it went up less than G ago, and then for such a key-up. -/
theorem gapWait_none_iff {s : State} {d : Division} {a : Action} : gapWait s d a = none ↔
    ∀ k ∈ a.keys, ∀ u, ¬(vget (s.sched.keyUps.get d) k = some u ∧ tdiff s.partTime u < (s.tables.gap : Int)) := by
  rw [gapWait_eq, foldl_keepOne_none, List.eq_nil_iff_forall_not_mem]
  simp only [mem_recentUps, and_true]
  exact ⟨fun h k hk u hu => h u ⟨k, hk, hu⟩, fun h u ⟨k, hk, hu⟩ => h k hk u hu⟩

theorem gapWait_some {s : State} {d : Division} {a : Action} {u : PartTime} (h : gapWait s d a = some u) :
    ∃ k ∈ a.keys, vget (s.sched.keyUps.get d) k = some u ∧ tdiff s.partTime u < (s.tables.gap : Int) :=
  mem_recentUps.mp ((foldl_keepOne_some laterUp_or ((gapWait_eq s d a).symm.trans h)).resolve_right nofun)

/-! ### The issue (R139) -/

/-- The state in which the keys of press `a` go down: its entry's registration switch made, if it is still to be made. -/
def pressSwitched (s : State) (a : Action) : State := if a.entry.val ≠ 0 ∧ !switchMade s a.entry then makeSwitch s a.entry else s

/-- The queue and the hold counts after the keys of press `a` have gone down. -/
def pressMoved (s : State) (d : Division) (a : Action) : List Action × Vector Nat 61 :=
  a.keys.foldl (pressKeys a) ((queue s d).erase a, s.sched.holds.get d)

/-- The state after press `a`, the boost apart. -/
def pressDone (s : State) (d : Division) (a : Action) : State :=
  writeSounding (markIfChanged d (playImage s d)
    (withHolds (withQueue (pressSwitched s a) d (pressMoved s d a).1) d (pressMoved s d a).2)) a.step (soundingOf s d a)

@[simp] theorem pressSwitched_keeps (s : State) (a : Action) :
    (pressSwitched s a).partTime = s.partTime ∧ (pressSwitched s a).handler = s.handler ∧ (pressSwitched s a).store = s.store ∧
      (pressSwitched s a).tables = s.tables ∧ (pressSwitched s a).detector = s.detector ∧ (pressSwitched s a).clock = s.clock ∧
      (pressSwitched s a).follower = s.follower ∧ (pressSwitched s a).prot = s.prot := by
  unfold pressSwitched
  split <;> simp

theorem pressSwitched_actions (s : State) (a : Action) : SameActions s (pressSwitched s a) := by
  unfold pressSwitched
  split
  · exact makeSwitch_actions s _
  · exact .refl s

theorem pressSwitched_unmoved (s : State) (a : Action) : (pressSwitched s a).sched.queues = s.sched.queues ∧
    (pressSwitched s a).sched.holds = s.sched.holds ∧ (pressSwitched s a).sched.keyUps = s.sched.keyUps := by
  have h := pressSwitched_actions s a
  unfold SameActions at h
  rw [h]
  exact ⟨rfl, rfl, rfl⟩

theorem stopsOf_congr {s t : State} (h : t.tables = s.tables) (d : Division) (b : BitVec 48) : stopsOf t d b = stopsOf s d b := by
  have he : stopEntry? t = stopEntry? s := funext fun n => by rw [stopEntry?, stopEntry?, h]
  rw [stopsOf, stopsOf, he]

/-- The lead of a press is that of its own entry, whether its switch is made or not. -/
theorem pressLead_switched (s : State) (d : Division) (a : Action) :
    pressLead (pressSwitched s a) d a.entry = pressLead s d a.entry := by
  have hset : entrySet (pressSwitched s a) a.entry = entrySet s a.entry := by
    have hplan : planEntry (pressSwitched s a) a.entry = planEntry s a.entry := by simp [planEntry]
    cases hr : (planEntry s a.entry).registration with
    | some k => rw [entrySet, entrySet, hplan, hr]; simp
    | none =>
      have : pressSwitched s a = s := by
        unfold pressSwitched makeSwitch
        rw [hr]
        exact ite_self s
      rw [this]
  have htables : (pressSwitched s a).tables = s.tables := by simp
  rw [pressLead, pressLead, hset, lessWithdrawn_congr (t := pressSwitched s a) (s := s) (by simp) htables, htables,
    stopsOf_congr htables]

theorem soundingOf_switched (s : State) (d : Division) (a : Action) : soundingOf (pressSwitched s a) d a = soundingOf s d a := by
  have htime : timeTo (pressSwitched s a) a.pos = timeTo s a.pos := by simp [timeTo]
  rw [soundingOf, soundingOf, pressTime, pressTime, pressLead_switched, htime]

theorem issuePress_eq (s : State) (d : Division) (a : Action) : issuePress s d a =
    if s.follower.mode = .follow then raiseBoost (pressDone s d a) d a.entry else pressDone s d a := by
  obtain ⟨hq, hh, -⟩ := pressSwitched_unmoved s a
  have himage : playImage (pressSwitched s a) d = playImage s d := playImage_congr (by rw [hh])
  have hmoved : a.keys.foldl (pressKeys a) ((queue (pressSwitched s a) d).erase a, (pressSwitched s a).sched.holds.get d) =
      pressMoved s d a := by
    rw [queue, hq, hh]
    rfl
  rw [pressDone, ← hmoved, ← himage, ← soundingOf_switched]
  rfl

theorem pressDone_sched (s : State) (d : Division) (a : Action) : (pressDone s d a).sched = { (pressSwitched s a).sched with
    queues := s.sched.queues.set d (pressMoved s d a).1, holds := s.sched.holds.set d (pressMoved s d a).2 } := by
  obtain ⟨hq, hh, -⟩ := pressSwitched_unmoved s a
  simp [pressDone, withHolds, withQueue, hq, hh]

theorem issuePress_sched (s : State) (d : Division) (a : Action) : (issuePress s d a).sched = { (pressSwitched s a).sched with
    queues := s.sched.queues.set d (pressMoved s d a).1, holds := s.sched.holds.set d (pressMoved s d a).2 } := by
  rw [← pressDone_sched, issuePress_eq]
  split
  · simp
  · rfl

theorem stepRec_of_store {s t : State} (h : t.store = s.store) (n : StepNo) : stepRec t n = stepRec s n := by
  rw [stepRec, h]
  rfl

theorem issuePress_store (s : State) (d : Division) (a : Action) :
    (issuePress s d a).store = (writeSounding s a.step (soundingOf s d a)).store := by
  have h : (issuePress s d a).store = (pressDone s d a).store := by
    rw [issuePress_eq]
    split
    · simp
    · rfl
  let u := markIfChanged d (playImage s d)
    (withHolds (withQueue (pressSwitched s a) d (pressMoved s d a).1) d (pressMoved s d a).2)
  have hu : u.store = s.store := by simp [u, withHolds, withQueue]
  rw [h, pressDone]
  change (writeSounding u a.step _).store = _
  unfold writeSounding writeResult
  rw [stepRec_of_store hu]
  split
  · exact hu
  · rw [writeStep, writeStep, hu]
    rfl

theorem issuePress_marks {s : State} {d : Division} {a : Action} (h : playImage (issuePress s d a) d ≠ playImage s d) :
    .marker (.keys d) ∈ (issuePress s d a).relay.downQueue := by
  have hrelay : (issuePress s d a).relay = (markIfChanged d (playImage s d)
      (withHolds (withQueue (pressSwitched s a) d (pressMoved s d a).1) d (pressMoved s d a).2)).relay := by
    rw [issuePress_eq]
    split <;> simp [pressDone]
  have hsched : (issuePress s d a).sched = (pressDone s d a).sched := (issuePress_sched s d a).trans (pressDone_sched s d a).symm
  rw [hrelay]
  refine markIfChanged_marks ?_
  rwa [playImage_congr (t := issuePress s d a) (s := markIfChanged d (playImage s d)
    (withHolds (withQueue (pressSwitched s a) d (pressMoved s d a).1) d (pressMoved s d a).2))
    (by rw [hsched]; simp [pressDone])] at h

/-- The switch of the press's own entry is made, when it names a set and the switch is still to be made; else no switch is. -/
theorem pressSwitched_makes {s : State} {a : Action} {k : SetNo} (h0 : a.entry.val ≠ 0) (hm : switchMade s a.entry = false)
    (hr : (planEntry s a.entry).registration = some k) : SwitchSet s (pressSwitched s a) a.entry k := by
  rw [pressSwitched, if_pos ⟨h0, by rw [hm]; rfl⟩]
  exact makeSwitch_set hr

theorem pressSwitched_none {s : State} {a : Action}
    (h : a.entry.val = 0 ∨ switchMade s a.entry = true ∨ (planEntry s a.entry).registration = none) : pressSwitched s a = s := by
  unfold pressSwitched
  split
  · rename_i hc
    rw [makeSwitch, (h.resolve_left hc.1).resolve_left (by simpa using hc.2)]
  · rfl

/-- The later of the boost's end and a candidate (R89). -/
def laterBoost (old : Option PartTime) (candidate : PartTime) : PartTime :=
  match old with
  | some b => if tdiff b candidate < 0 then candidate else b
  | none => candidate

theorem raiseBoost_detector (s : State) (d : Division) (i : EntryNo) : (raiseBoost s d i).detector = { s.detector with
    boostUntil := some (laterBoost s.detector.boostUntil (after s.partTime (pressLead s d i + (bleedLength s d : Int)))) } := rfl

/-- The boost is raised in FOLLOW, by the lead and the bleed length of the stops drawn after the press. -/
theorem issuePress_detector (s : State) (d : Division) (a : Action) :
    (s.follower.mode ≠ .follow → (issuePress s d a).detector = s.detector) ∧
    (s.follower.mode = .follow → (issuePress s d a).detector = { s.detector with
      boostUntil := some (laterBoost s.detector.boostUntil
        (after s.partTime (pressLead s d a.entry + (bleedLength (issuePress s d a) d : Int)))) }) := by
  have hdet : (pressDone s d a).detector = s.detector := by simp [pressDone, withHolds, withQueue]
  have htime : (pressDone s d a).partTime = s.partTime := by simp [pressDone, withHolds, withQueue]
  constructor
  · intro h
    rw [issuePress_eq, if_neg h, hdet]
  · intro h
    have htables : (pressDone s d a).tables = (pressSwitched s a).tables := by simp [pressDone, withHolds, withQueue]
    have hprot : (pressDone s d a).prot = (pressSwitched s a).prot := by simp [pressDone, withHolds, withQueue]
    have hlead : pressLead (pressDone s d a) d a.entry = pressLead s d a.entry := by
      have hactive : (pressDone s d a).sched.active = (pressSwitched s a).sched.active := by rw [pressDone_sched]
      have hset : entrySet (pressDone s d a) a.entry = entrySet (pressSwitched s a) a.entry := by
        simp only [entrySet, activeSet, planEntry, htables, hactive]
      rw [← pressLead_switched s d a, pressLead, hset, lessWithdrawn_congr hprot htables, htables, stopsOf_congr htables]
      rfl
    have hbleed : bleedLength (issuePress s d a) d = bleedLength (pressDone s d a) d := by
      have ht : (issuePress s d a).tables = (pressDone s d a).tables := by rw [htables]; simp
      have hs : (issuePress s d a).sched = (pressDone s d a).sched := (issuePress_sched s d a).trans (pressDone_sched s d a).symm
      rw [bleedLength, bleedLength, hs, stopsOf_congr ht]
    have heq : (issuePress s d a).detector = (raiseBoost (pressDone s d a) d a.entry).detector := by
      rw [issuePress_eq, if_pos h]
    rw [heq, raiseBoost_detector, hdet, htime, hlead, hbleed]

/-! ### The statement -/

/-- What every examination of a press leaves as it is: all but its queue and counts, its step, the registration and the boost. -/
def PressKeeps (s t : State) (d : Division) (n : StepNo) : Prop :=
  t.follower = s.follower ∧ t.clock = s.clock ∧ t.tables = s.tables ∧ t.prot = s.prot ∧
    t.handler = s.handler ∧ t.store.chains = s.store.chains ∧ t.sched.keyUps = s.sched.keyUps ∧
    (∀ k, k ≠ n → stepRec t k = stepRec s k) ∧ ∀ e, e ≠ d → queue t e = queue s e ∧ t.sched.holds.get e = s.sched.holds.get e

theorem stepRec_writeSounding (s : State) (n k : StepNo) (v : Sounding) : stepRec (writeSounding s n v) k =
    if k = n ∧ (stepRec s n).list ≠ 0 then { stepRec s n with sounding := v } else stepRec s k := stepRec_writeResult s n k _

theorem chains_writeSounding (s : State) (n : StepNo) (v : Sounding) : (writeSounding s n v).store.chains = s.store.chains := by
  unfold writeSounding writeResult
  split <;> rfl

theorem PressKeeps.switches {s u : State} {d : Division} {n : StepNo} (h : PressKeeps s u d n) :
    PressKeeps s (waitingSwitches u) d n := by
  obtain ⟨hf, hc, ht, hp, hh, hchains, hups, hrec, hrest⟩ := h
  have hactions := waitingSwitches_actions u
  unfold SameActions at hactions
  have hstore : (waitingSwitches u).store = u.store := by simp
  refine ⟨by simpa using hf, by simpa using hc, by simpa using ht, by simpa using hp, by simpa using hh, by rw [hstore, hchains],
    by rw [hactions]; exact hups, fun k hk => (stepRec_of_store hstore k).trans (hrec k hk), fun e he => ?_⟩
  rw [queue, hactions]
  exact hrest e he

/-- A queue and counts of one division, and the sounding of one step, are all that is written. -/
theorem pressKeeps_of {s u : State} {d : Division} {n : StepNo} {v : Sounding} {q : List Action} {c : Vector Nat 61}
    (hf : u.follower = s.follower) (hc : u.clock = s.clock) (ht : u.tables = s.tables) (hp : u.prot = s.prot)
    (hh : u.handler = s.handler) (hstore : u.store = (writeSounding s n v).store ∨ u.store = s.store)
    (hups : u.sched.keyUps = s.sched.keyUps) (hq : u.sched.queues = s.sched.queues.set d q)
    (hholds : u.sched.holds = s.sched.holds.set d c ∨ u.sched.holds = s.sched.holds) : PressKeeps s u d n := by
  refine ⟨hf, hc, ht, hp, hh, ?_, hups, fun k hk => ?_, fun e he => ⟨?_, ?_⟩⟩
  · rcases hstore with h | h
    · rw [h, chains_writeSounding]
    · rw [h]
  · rcases hstore with h | h
    · rw [stepRec_of_store h, stepRec_writeSounding, if_neg fun hx => hk hx.1]
    · exact stepRec_of_store h k
  · rw [queue, hq, PerDiv.get_set, if_neg he]
    rfl
  · rcases hholds with h | h
    · rw [h, PerDiv.get_set, if_neg he]
    · rw [h]

theorem pressKeeps_drop (s : State) (d : Division) (a : Action) : PressKeeps s (dropPress s d a) d a.step :=
  pressKeeps_of (v := .dropped) (q := dropFrom (queue s d) a) (c := s.sched.holds.get d) (by simp) (by simp) (by simp) (by simp)
    (by simp) (.inl (by
      unfold dropPress writeSounding writeResult
      rw [stepRec_of_store (t := withQueue s d (dropFrom (queue s d) a)) (s := s) rfl]
      split <;> rfl))
    (by simp [dropPress, withQueue]) (by simp [dropPress, withQueue]) (.inr (by simp [dropPress, withQueue]))

theorem pressKeeps_wait (s : State) (d : Division) (n : StepNo) (q : List Action) : PressKeeps s (withQueue s d q) d n :=
  pressKeeps_of (v := .dropped) (c := s.sched.holds.get d) rfl rfl rfl rfl rfl (.inr rfl) rfl rfl (.inr rfl)

theorem pressKeeps_issue (s : State) (d : Division) (a : Action) : PressKeeps s (issuePress s d a) d a.step := by
  obtain ⟨-, -, hups⟩ := pressSwitched_unmoved s a
  exact pressKeeps_of (by simp) (by simp) (by simp) (by simp) (by simp) (.inl (issuePress_store s d a))
    (by rw [issuePress_sched]; exact hups) (by rw [issuePress_sched]) (.inl (by rw [issuePress_sched]))

theorem examinePress_of_late {s : State} {d : Division} {a : Action} (h : a.relPos ≤ position s) :
    examinePress s d a = dropPress s d a := if_pos h

theorem examinePress_of_gap {s : State} {d : Division} {a : Action} {u : PartTime} (h : position s < a.relPos)
    (hg : gapWait s d a = some u) :
    examinePress s d a = withQueue s d ((queue s d).replace a { a with waitOn := some u }) := by
  rw [examinePress, if_neg (not_le.mpr h), hg]

theorem examinePress_of_clear {s : State} {d : Division} {a : Action} (h : position s < a.relPos) (hg : gapWait s d a = none) :
    examinePress s d a = issuePress s d a := by
  rw [examinePress, if_neg (not_le.mpr h), hg]

/-- Settles O52: the first issuable press is examined, and the drop, the wait and the issue are the three outcomes of the examination. -/
theorem pressesAreDroppedHeldBackOrIssued : Obligations.PressesAreDroppedHeldBackOrIssued := by
  unfold Obligations.PressesAreDroppedHeldBackOrIssued
  refine ⟨pressFirst_iff, fun s d a hr hfirst => ?_⟩
  intro kept recent
  obtain ⟨hready, hkind⟩ := Option.filter_eq_some_iff.mp hfirst
  have hkind : a.kind = .press := of_decide_eq_true hkind
  have hmem : a ∈ queue s d := mem_of_firstReady hready
  have hexec : exec (.pressIssue d) s = .next (waitingSwitches (examinePress s d a)) := by
    have h := exec_of_due (act := pressNow s d) (row := .pressIssue d) rfl (by rw [hfirst]; rfl) hr
    rwa [pressNow, hfirst] at h
  refine ⟨hmem, hkind, fun hlate => ?_, fun hlive ⟨k, hk, u, hu⟩ => ?_, fun hlive hclear hnodup => ?_⟩
  · rw [examinePress_of_late hlate] at hexec
    have hactions := waitingSwitches_actions (dropPress s d a)
    unfold SameActions at hactions
    have hq : queue (waitingSwitches (dropPress s d a)) d = dropFrom (queue s d) a := by
      rw [queue, hactions]
      simp [dropPress, withQueue]
    refine ⟨_, hexec, (pressKeeps_drop s d a).switches, by simp, by rw [hactions]; simp [dropPress, withQueue], ?_, ?_, ?_, ?_, ?_⟩
    · rw [hq]
      exact length_dropFrom_lt hmem
    · rw [hq]
      exact fun b hb hne hp hh => mem_dropFrom_of_other hb hne hp hh
    · rw [hq]
      intro hfree left
      refine ⟨fun b hb hp hleft => ?_, fun b hb hp => ?_⟩
      · have := mem_dropFrom_of_partner hb hp (hfree b hb hp) (by rw [keepHeld_of_partner hp]; exact hleft)
        rwa [keepHeld_of_partner hp] at this
      · obtain ⟨hkeys, b0, hb0, hp0, heq⟩ := of_mem_dropFrom_partner hb hp hfree
        exact ⟨hkeys, b0, hb0, heq.trans (keepHeld_of_partner hp0)⟩
    · rw [hq]
      intro b hb k hk hne hbk hh
      obtain ⟨b', hb', h1, h2, h3, h4, hret⟩ := mem_dropFrom_of_holder hkind hb hk hne hbk hh
      exact ⟨b', hb', h1, h2, h3, h4, hret⟩
    · intro hl
      rw [stepRec_of_store (t := waitingSwitches (dropPress s d a)) (s := dropPress s d a) (by simp), dropPress,
        stepRec_writeSounding]
      exact if_pos ⟨rfl, hl⟩
  · have hsome : gapWait s d a ≠ none := fun h => gapWait_none_iff.mp h k hk u hu
    obtain ⟨v, hv⟩ := Option.ne_none_iff_exists'.mp hsome
    obtain ⟨x, hx, hrecent⟩ := gapWait_some hv
    rw [examinePress_of_gap hlive hv] at hexec
    have hactions := waitingSwitches_actions (withQueue s d ((queue s d).replace a { a with waitOn := some v }))
    unfold SameActions at hactions
    refine ⟨_, v, hexec, (pressKeeps_wait s d a.step _).switches, by simp [withQueue], by simp [withQueue], ?_, ⟨x, hx, hrecent⟩, ?_⟩
    · rw [hactions]
      rfl
    · rw [queue, hactions]
      exact queue_withQueue_same s d _
  · rw [examinePress_of_clear hlive (gapWait_none_iff.mpr hclear)] at hexec
    let u := issuePress s d a
    have hus := issuePress_sched s d a
    have hactions := waitingSwitches_actions u
    unfold SameActions at hactions
    have hq : queue (waitingSwitches u) d = (pressMoved s d a).1 := by
      rw [queue, hactions, hus]
      exact PerDiv.get_set_same _ _ _
    have hholds : (waitingSwitches u).sched.holds.get d = (pressMoved s d a).2 := by
      rw [hactions, hus]
      exact PerDiv.get_set_same _ _ _
    have htables : u.tables = s.tables := by simp [u]
    have hdet : (waitingSwitches u).detector = u.detector := by simp
    obtain ⟨hstill, hboost⟩ := issuePress_detector s d a
    refine ⟨u, _, pressLead s d a.entry, bleedLength u d, hexec, rfl, (pressKeeps_issue s d a).switches, by simp [u], htables,
      by simp [u], leadIs_iff.mpr rfl, largestOf_iff.mpr ?_, fun hroom => ?_, fun k => ?_, fun k hk hfull => ?_, fun himage => ?_,
      fun hl => ?_, fun k h0 hm hreg => ?_, fun hno => ?_, fun hmode => ?_, fun hmode => ?_⟩
    · rw [bleedLength, stopsOf_congr htables]
    · rw [hq]
      exact pressAll_of_room a _ hnodup hroom
    · rw [hholds]
      exact pressAll_counts a _ hnodup k
    · rw [hq]
      exact pressAll_capped a _ hk hfull
    · rw [playImage_congr (t := waitingSwitches u) (s := u) (by rw [hactions])] at himage
      exact (evolves_waitingSwitches u).relay.mem _ (issuePress_marks himage)
    · rw [stepRec_of_store (t := waitingSwitches u) (s := u) (by simp), stepRec_of_store (issuePress_store s d a),
        stepRec_writeSounding, if_pos ⟨rfl, hl⟩, soundingOf, pressTime, neg_sub]
      rfl
    · rw [hus]
      exact pressSwitched_makes h0 hm hreg
    · rw [hus, pressSwitched_none hno]
      exact ⟨rfl, rfl, rfl⟩
    · rw [hdet]
      exact hstill hmode
    · rw [hdet]
      refine ⟨_, hboost hmode, fun hnone => ?_, fun old hold => ?_⟩
      · rw [hnone]
        rfl
      · rw [hold]
        rfl

end Machine

end Sys2Proof
end

section
/-! PROOF. Ties (O51): what a tie takes out of the waiting releases, what it leaves to the press, what it holds over. -/

namespace Sys2Proof

namespace Machine

set_option Elab.async false

/-! ### One key (R133) -/

theorem tieSource_iff {x : Pos} {k : Key} {b : Action} : tieSource x k b = true ↔ b.kind = .release ∧ b.pos = x ∧ k ∈ b.keys := by
  simp only [tieSource, Bool.and_eq_true, decide_eq_true_eq, List.contains_iff_mem, and_assoc]

theorem mem_dropKey {k j : Key} {r : Action} : j ∈ (dropKey k r).keys ↔ j ∈ r.keys ∧ j ≠ k := by
  simp [dropKey]

theorem tieSource_dropKey_same (x : Pos) (k : Key) (r : Action) : tieSource x k (dropKey k r) = false :=
  Bool.eq_false_iff.mpr fun h => by
    obtain ⟨-, -, hk⟩ := tieSource_iff.mp h
    exact (mem_dropKey.mp hk).2 rfl

theorem tieSource_dropKey_other (x : Pos) {k j : Key} (h : j ≠ k) (r : Action) : tieSource x j (dropKey k r) = tieSource x j r := by
  rw [Bool.eq_iff_iff, tieSource_iff, tieSource_iff, mem_dropKey, and_iff_left h]
  rfl

/-- What remains of a release that loses key `k`: nothing, when it carries no other. -/
def remains (k : Key) (r : Action) : List Action := if (dropKey k r).keys = [] then [] else [dropKey k r]

/-- The queue after key `k` has been taken out of the first waiting release that carries it. -/
def takeKey (x : Pos) (q : List Action) (k : Key) : List Action := (tieKey x (q, [], []) k).1

theorem takeKey_of_none {x : Pos} {q : List Action} {k : Key} (h : q.find? (tieSource x k) = none) : takeKey x q k = q := by
  rw [takeKey, tieKey, h]

/-- The release that gives key `k` stands at one place of the queue, the first that carries it, and is thinned there. -/
theorem takeKey_of_some {x : Pos} {q : List Action} {k : Key} {r : Action} (h : q.find? (tieSource x k) = some r) :
    tieSource x k r = true ∧
      ∃ l m, q = l ++ r :: m ∧ (∀ b ∈ l, tieSource x k b = false) ∧ takeKey x q k = l ++ remains k r ++ m := by
  obtain ⟨hr, l, m, rfl, hl⟩ := List.find?_eq_some_iff_append.mp h
  have hl' : ∀ b ∈ l, tieSource x k b = false := fun b hb => by simpa using hl b hb
  have hnot : r ∉ l := fun hmem => by rw [hl' r hmem] at hr; cases hr
  refine ⟨hr, l, m, rfl, hl', ?_⟩
  rw [takeKey, tieKey, h]
  dsimp only
  rw [remains]
  split
  · rw [List.erase_append_right _ hnot, List.erase_cons_head, List.append_nil]
  · rw [List.replace_append_right hnot, List.replace_cons_self, List.append_assoc]
    rfl

/-- The queues before and after one key of a tie, part by part. -/
theorem takeKey_cases (x : Pos) (q : List Action) (k : Key) :
    ((∀ b ∈ q, tieSource x k b = false) ∧ takeKey x q k = q) ∨
      ∃ r l m, tieSource x k r = true ∧ q.find? (tieSource x k) = some r ∧ q = l ++ r :: m ∧
        (∀ b ∈ l, tieSource x k b = false) ∧ takeKey x q k = l ++ remains k r ++ m := by
  cases h : q.find? (tieSource x k) with
  | none => exact .inl ⟨fun b hb => by simpa using List.find?_eq_none.mp h b hb, takeKey_of_none h⟩
  | some r =>
    obtain ⟨hr, l, m, hq, hl, ht⟩ := takeKey_of_some h
    exact .inr ⟨r, l, m, hr, rfl, hq, hl, ht⟩

theorem mem_remains {k : Key} {r b : Action} (h : b ∈ remains k r) : b = dropKey k r ∧ b.keys ≠ [] := by
  unfold remains at h
  split at h
  · cases h
  · rename_i hk
    obtain rfl := List.mem_singleton.mp h
    exact ⟨rfl, hk⟩

/-- A release emptied of key `k` carries no other key. -/
theorem not_tieSource_of_emptied {x : Pos} {k j : Key} {r : Action} (h : (dropKey k r).keys = []) (hj : j ≠ k) :
    tieSource x j r = false :=
  Bool.eq_false_iff.mpr fun hr => by
    obtain ⟨-, -, hmem⟩ := tieSource_iff.mp hr
    have := mem_dropKey.mpr ⟨hmem, hj⟩
    rw [h] at this
    cases this

theorem countP_remains_other {x : Pos} {k j : Key} {r : Action} (hj : j ≠ k) :
    (remains k r).countP (tieSource x j) = [r].countP (tieSource x j) := by
  unfold remains
  split
  · rename_i h
    rw [List.countP_singleton, not_tieSource_of_emptied h hj]
    rfl
  · rw [List.countP_singleton, List.countP_singleton, tieSource_dropKey_other x hj]

theorem countP_remains_same (x : Pos) (k : Key) (r : Action) : (remains k r).countP (tieSource x k) = 0 := by
  refine List.countP_eq_zero.mpr fun b hb => ?_
  rw [(mem_remains hb).1, tieSource_dropKey_same]
  nofun

/-- One key of a tie lowers by one the count of the releases that carry it, and no other. -/
theorem countP_takeKey (x : Pos) (q : List Action) (k j : Key) :
    (takeKey x q k).countP (tieSource x j) = q.countP (tieSource x j) - if j = k then 1 else 0 := by
  rcases takeKey_cases x q k with ⟨hnone, ht⟩ | ⟨r, l, m, hr, -, rfl, hl, ht⟩
  · rw [ht]
    split
    · subst j
      rw [List.countP_eq_zero.mpr fun b hb => by rw [hnone b hb]; nofun]
    · rfl
  · rw [ht, List.countP_append, List.countP_append, List.countP_append, List.countP_cons]
    by_cases hj : j = k
    · subst hj
      rw [countP_remains_same, if_pos hr, if_pos rfl]
      omega
    · rw [countP_remains_other hj, List.countP_singleton, if_neg hj]
      omega

/-- The release that gives a key: its step and its entry, under the key held over. -/
def heldFrom (x : Pos) (q : List Action) (k : Key) : Option HeldKey :=
  (q.find? (tieSource x k)).map fun r => { key := k, step := r.step, entry := r.entry }

/-- Another key finds the release that gives it where it stood before. -/
theorem heldFrom_takeKey {x : Pos} {q : List Action} {k j : Key} (hj : j ≠ k) : heldFrom x (takeKey x q k) j = heldFrom x q j := by
  rcases takeKey_cases x q k with ⟨-, ht⟩ | ⟨r, l, m, -, -, rfl, -, ht⟩
  · rw [ht]
  · simp only [ht, heldFrom, List.append_assoc, List.find?_append (xs := l)]
    cases l.find? (tieSource x j) with
    | some b => rfl
    | none =>
      rw [Option.none_or, Option.none_or, remains]
      split
      · rename_i h
        rw [List.nil_append, List.find?_cons_of_neg (by rw [not_tieSource_of_emptied h hj]; nofun)]
      · rw [List.singleton_append]
        by_cases hr : tieSource x j r = true
        · rw [List.find?_cons_of_pos hr, List.find?_cons_of_pos (by rw [tieSource_dropKey_other x hj]; exact hr)]
          rfl
        · rw [List.find?_cons_of_neg hr, List.find?_cons_of_neg (by rw [tieSource_dropKey_other x hj]; exact hr)]

/-- Action `b` is `b0` less some of the keys of `keys`, and is `b0` itself when it is left without a key. -/
def KeysTaken (keys : List Key) (b b0 : Action) : Prop :=
  b = { b0 with keys := b.keys, heldOver := b.heldOver } ∧ (∀ k ∈ b.keys, k ∈ b0.keys) ∧
    (∀ k ∈ b0.keys, k ∉ b.keys → k ∈ keys) ∧ (b.keys = [] → b = b0)

theorem KeysTaken.refl (keys : List Key) (b : Action) : KeysTaken keys b b :=
  ⟨rfl, fun _ h => h, fun _ h hn => absurd h hn, fun _ => rfl⟩

theorem KeysTaken.trans {k : Key} {keys : List Key} {b b0 b1 : Action} (h1 : KeysTaken keys b b0) (h2 : KeysTaken [k] b0 b1) :
    KeysTaken (k :: keys) b b1 := by
  obtain ⟨e1, s1, m1, n1⟩ := h1
  obtain ⟨e2, s2, m2, n2⟩ := h2
  refine ⟨e1.trans ?_, fun j hj => s2 j (s1 j hj), fun j hj hn => ?_, fun h => ?_⟩
  · rw [e2]
  · by_cases h0 : j ∈ b0.keys
    · exact List.mem_cons_of_mem _ (m1 j h0 hn)
    · exact List.mem_cons.mpr (.inl (List.mem_singleton.mp (m2 j hj h0)))
  · have hb := n1 h
    rw [hb] at h
    exact hb.trans (n2 h)

theorem keysTaken_dropKey {k : Key} {r : Action} (h : (dropKey k r).keys ≠ []) : KeysTaken [k] (dropKey k r) r := by
  refine ⟨rfl, fun j hj => (mem_dropKey.mp hj).1, fun j hj hn => ?_, fun h0 => absurd h0 h⟩
  exact List.mem_singleton.mpr (not_not.mp fun hne => hn (mem_dropKey.mpr ⟨hj, hne⟩))

theorem of_mem_takeKey {x : Pos} {q : List Action} {k : Key} {b : Action} (hb : b ∈ takeKey x q k) : ∃ b0 ∈ q, KeysTaken [k] b b0 := by
  rcases takeKey_cases x q k with ⟨-, ht⟩ | ⟨r, l, m, -, -, rfl, -, ht⟩
  · exact ⟨b, ht ▸ hb, .refl _ b⟩
  · rw [ht, List.mem_append, List.mem_append] at hb
    rcases hb with (hb | hb) | hb
    · exact ⟨b, List.mem_append_left _ hb, .refl _ b⟩
    · obtain ⟨rfl, hne⟩ := mem_remains hb
      exact ⟨r, List.mem_append_right _ List.mem_cons_self, keysTaken_dropKey hne⟩
    · exact ⟨b, List.mem_append_right _ (List.mem_cons_of_mem _ hb), .refl _ b⟩

theorem mem_takeKey_of_other {x : Pos} {q : List Action} {k : Key} {b : Action} (hb : b ∈ q) (h : tieSource x k b = false) :
    b ∈ takeKey x q k := by
  rcases takeKey_cases x q k with ⟨-, ht⟩ | ⟨r, l, m, hr, -, rfl, -, ht⟩
  · rwa [ht]
  · rw [ht, List.mem_append, List.mem_append]
    rcases List.mem_append.mp hb with hb | hb
    · exact .inl (.inl hb)
    · rcases List.mem_cons.mp hb with rfl | hb
      · rw [h] at hr; cases hr
      · exact .inr hb

/-! ### All keys of a step -/

theorem tieKey_eq (x : Pos) (acc : List Action × List Key × List HeldKey) (k : Key) : tieKey x acc k =
    (takeKey x acc.1 k, acc.2.1 ++ (if (heldFrom x acc.1 k).isNone then [k] else []), acc.2.2 ++ (heldFrom x acc.1 k).toList) := by
  unfold takeKey tieKey heldFrom
  cases acc.1.find? (tieSource x k) with
  | none => simp
  | some r => simp

/-- A tie leaves to the press the keys that no waiting release gives, and holds the others over, each found in the queue as it was. -/
theorem applyTie_eq (q : List Action) (x : Pos) {keys : List Key} (hn : keys.Nodup) : applyTie q x keys =
    (keys.foldl (takeKey x) q, keys.filter (fun k => (heldFrom x q k).isNone), keys.filterMap (heldFrom x q)) := by
  have h (acc : List Action × List Key × List HeldKey) : keys.foldl (tieKey x) acc =
      (keys.foldl (takeKey x) acc.1, acc.2.1 ++ keys.filter (fun k => (heldFrom x acc.1 k).isNone),
        acc.2.2 ++ keys.filterMap (heldFrom x acc.1)) := by
    induction keys generalizing acc with
    | nil => simp
    | cons k keys ih =>
      obtain ⟨hk, hkeys⟩ := List.nodup_cons.mp hn
      have same (j : Key) (hj : j ∈ keys) : heldFrom x (takeKey x acc.1 k) j = heldFrom x acc.1 j :=
        heldFrom_takeKey fun h => hk (h ▸ hj)
      rw [List.foldl_cons, ih hkeys, tieKey_eq]
      dsimp only
      rw [List.filter_congr fun j hj => by rw [same j hj], List.filterMap_congr same, List.foldl_cons, List.append_assoc,
        List.append_assoc]
      cases hheld : heldFrom x acc.1 k <;> simp [hheld]
  exact h (q, [], [])

theorem heldFrom_some_iff {x : Pos} {q : List Action} {k : Key} {h : HeldKey} : heldFrom x q k = some h ↔
    ∃ r, q.find? (tieSource x k) = some r ∧ h = { key := k, step := r.step, entry := r.entry } := by
  simp only [heldFrom, Option.map_eq_some_iff, eq_comm (a := h)]

theorem heldFrom_none_iff {x : Pos} {q : List Action} {k : Key} : heldFrom x q k = none ↔ ∀ b ∈ q, ¬tieSource x k b = true := by
  rw [heldFrom, Option.map_eq_none_iff, List.find?_eq_none]

theorem takeKeys_countP (x : Pos) {keys : List Key} (hn : keys.Nodup) (q : List Action) (k : Key) :
    (keys.foldl (takeKey x) q).countP (tieSource x k) = q.countP (tieSource x k) - if k ∈ keys then 1 else 0 := by
  induction keys generalizing q with
  | nil => rfl
  | cons j keys ih =>
    obtain ⟨hj, hkeys⟩ := List.nodup_cons.mp hn
    rw [List.foldl_cons, ih hkeys, countP_takeKey]
    by_cases h : k = j
    · subst h
      simp [hj]
    · simp [h]

theorem takeKeys_members (x : Pos) (keys : List Key) (q : List Action) {b : Action} (hb : b ∈ keys.foldl (takeKey x) q) :
    ∃ b0 ∈ q, KeysTaken keys b b0 := by
  induction keys generalizing q with
  | nil => exact ⟨b, hb, .refl _ b⟩
  | cons k keys ih =>
    obtain ⟨b0, hb0, h1⟩ := ih _ hb
    obtain ⟨b1, hb1, h2⟩ := of_mem_takeKey hb0
    exact ⟨b1, hb1, h1.trans h2⟩

theorem takeKeys_others (x : Pos) (keys : List Key) (q : List Action) {b : Action} (hb : b ∈ q)
    (h : ∀ k ∈ keys, tieSource x k b = false) : b ∈ keys.foldl (takeKey x) q := by
  induction keys generalizing q with
  | nil => exact hb
  | cons k keys ih =>
    exact ih _ (mem_takeKey_of_other hb (h k List.mem_cons_self)) fun j hj => h j (List.mem_cons_of_mem _ hj)

/-- The laws of a tie (R133). -/
theorem applyTie_laws (q : List Action) (x : Pos) (keys : List Key) (hn : keys.Nodup) :
    let tied := applyTie q x keys
    (∀ k ∈ keys, (k ∈ tied.2.1 ↔ ∀ b ∈ q, ¬tieSource x k b = true) ∧
      ((∃ h ∈ tied.2.2, h.key = k) ↔ ∃ b ∈ q, tieSource x k b = true)) ∧
    (∀ k ∈ tied.2.1, k ∈ keys) ∧
    (∀ h ∈ tied.2.2, h.key ∈ keys ∧
      ∃ r, q.find? (tieSource x h.key) = some r ∧ tieSource x h.key r = true ∧ h.step = r.step ∧ h.entry = r.entry) ∧
    (∀ k, tied.1.countP (tieSource x k) = q.countP (tieSource x k) - if k ∈ keys then 1 else 0) ∧
    (∀ b ∈ tied.1, ∃ b0 ∈ q, KeysTaken keys b b0) ∧
    ∀ b ∈ q, (∀ k ∈ keys, tieSource x k b = false) → b ∈ tied.1 := by
  dsimp only
  rw [applyTie_eq q x hn]
  dsimp only
  refine ⟨fun k hk => ⟨?_, ?_⟩, fun k hk => (List.mem_filter.mp hk).1, fun h hh => ?_, takeKeys_countP x hn q,
    fun b hb => takeKeys_members x keys q hb, fun b hb h => takeKeys_others x keys q hb h⟩
  · rw [List.mem_filter, and_iff_right hk, Option.isNone_iff_eq_none, heldFrom_none_iff]
  · constructor
    · rintro ⟨h, hh, rfl⟩
      obtain ⟨j, -, hj⟩ := List.mem_filterMap.mp hh
      obtain ⟨r, hr, rfl⟩ := heldFrom_some_iff.mp hj
      exact ⟨r, List.mem_of_find?_eq_some hr, List.find?_some hr⟩
    · intro hex
      have hsome : heldFrom x q k ≠ none := fun h0 => by
        obtain ⟨b, hb, hk⟩ := hex
        exact heldFrom_none_iff.mp h0 b hb hk
      obtain ⟨h, hh⟩ := Option.ne_none_iff_exists'.mp hsome
      obtain ⟨r, -, rfl⟩ := heldFrom_some_iff.mp hh
      exact ⟨_, List.mem_filterMap.mpr ⟨k, hk, hh⟩, rfl⟩
  · obtain ⟨k, hk, hheld⟩ := List.mem_filterMap.mp hh
    obtain ⟨r, hr, rfl⟩ := heldFrom_some_iff.mp hheld
    exact ⟨hk, r, hr, List.find?_some hr, rfl, rfl⟩

end Machine

end Sys2Proof
end

section
/-! PROOF. The walks and what they do with a step (O51). -/

namespace Sys2Proof

namespace Machine

set_option Elab.async false

/-! ### The step a walk has come to (R130, R145) -/

theorem findFrom_holds {c : List StepNo} {place limit : Nat} {p : StepNo → Bool} {r : Nat × StepNo}
    (h : findFrom c place limit p = some r) : p r.2 = true := by
  unfold findFrom at h
  obtain ⟨x, hx, rfl⟩ := Option.map_eq_some_iff.mp h
  have hp := List.find?_some (p := fun y : StepNo × Nat => decide (y.2 < limit) && p y.1) hx
  exact (Bool.and_eq_true_iff.mp hp).2

/-- What holds where a placement walk has come to a step (R130, R132). -/
theorem walkReady_some {s : State} {w : WalkSel} {i : EntryNo} {o : Pos} {at_ : Nat} {n : StepNo}
    (h : walkReady s w = some (i, o, at_, n)) :
    ∃ p, walkAt s w = some (i, o, p) ∧ readable s i = true ∧ walkHead s i p = some (at_, n) ∧
      (stalledAt s false i n = true ∨ pressPos s o n ≤ position s + Config.lookAhead) ∧
      catchHead s (stepRec s n).music.division = none := by
  unfold walkReady at h
  split at h
  · rename_i j o' p hw
    split at h
    · rename_i hread
      split at h
      · rename_i hhead
        split at h
        · rename_i hc
          cases h
          exact ⟨p, hw, hread, hhead, hc⟩
        · cases h
      · cases h
    · cases h
  · cases h

theorem walkReady_of {s : State} {w : WalkSel} {i : EntryNo} {o : Pos} {p at_ : Nat} {n : StepNo} (hw : walkAt s w = some (i, o, p))
    (hread : readable s i = true) (hhead : walkHead s i p = some (at_, n))
    (hc : stalledAt s false i n = true ∨ pressPos s o n ≤ position s + Config.lookAhead)
    (hcatch : catchHead s (stepRec s n).music.division = none) : walkReady s w = some (i, o, at_, n) := by
  simp only [walkReady, hw, if_pos hread, hhead]
  exact if_pos ⟨hc, hcatch⟩

/-- The catch-up walk of a division comes to keyed steps of its own, beyond the position at the lift (R145). -/
theorem catchHead_some {s : State} {d : Division} {c : CatchUp} {i : EntryNo} {o : Pos} {at_ : Nat} {n : StepNo}
    (hc : s.sched.catchUp.get d = some c) (h : catchHead s d = some (i, o, at_, n)) :
    keyed s i n = true ∧ (stepRec s n).music.division = d ∧ c.liftPos < pressPos s o n := by
  rw [catchHead, hc] at h
  obtain ⟨p, -, hp⟩ := List.exists_of_findSome?_eq_some h
  unfold catchPartHead at hp
  split at hp
  · split at hp
    · obtain ⟨r, hr, heq⟩ := Option.map_eq_some_iff.mp hp
      cases heq
      simpa only [Bool.and_eq_true, decide_eq_true_eq, and_assoc] using findFrom_holds hr
    · cases hp
  · cases hp

/-! ### The wait for room (R132) -/

theorem hasRoom_iff {s : State} {d : Division} : hasRoom s d = true ↔ ¬46 < (queue s d).length := by
  rw [hasRoom, decide_eq_true_eq, Config.queueMax]
  omega

theorem walksWait_of_no_stall {s : State} (h : s.sched.stalled = none) : walksWait s = false := by
  have at_ (c : Bool) (r : Option (EntryNo × Pos × Nat × StepNo)) : waitsAt s c r = false := by
    unfold waitsAt
    split
    · rw [stalledAt, h]
    · rfl
  simp [walksWait, at_]

theorem walksWait_of_walk {s : State} {w : WalkSel} {i : EntryNo} {o : Pos} {at_ : Nat} {n : StepNo}
    (h : walkReady s w = some (i, o, at_, n)) (hst : stalledAt s false i n = true) : walksWait s = true := by
  have hw : waitsAt s false (walkReady s w) = true := by
    rw [h]
    exact hst
  cases w with
  | current => rw [walksWait, hw]; rfl
  | next => rw [walksWait, hw, Bool.or_true]; rfl

theorem walksWait_of_catch {s : State} {d : Division} {i : EntryNo} {o : Pos} {at_ : Nat} {n : StepNo}
    (h : catchHead s d = some (i, o, at_, n)) (hst : stalledAt s true i n = true) : walksWait s = true := by
  rw [walksWait, Bool.or_eq_true, List.any_eq_true]
  exact .inr ⟨d, mem_divisionAll d, by rw [h]; exact hst⟩

/-- The wait of a walk at step `n` of entry `i` (R132 step 3). -/
def stallAt (s : State) (c : Bool) (i : EntryNo) (n : StepNo) : Stall :=
  { entry := i, step := n, division := (stepRec s n).music.division, catchUp := c }

theorem stalledAt_withStall (s : State) (c : Bool) (i : EntryNo) (n : StepNo) :
    stalledAt (withStall s (some (stallAt s c i n))) c i n = true := by
  have h : (withStall s (some (stallAt s c i n))).sched.stalled = some (stallAt s c i n) := rfl
  rw [stalledAt, h]
  simp [stallAt]

theorem sameEntries_withStall (s : State) (w : Option Stall) : SameEntries s (withStall s w) := .of_frame rfl rfl rfl

/-- A walk that waits from now on is at the step it waits at. -/
theorem walksWait_withStall_walk {s : State} {w : WalkSel} {i : EntryNo} {o : Pos} {at_ : Nat} {n : StepNo}
    (h : walkReady s w = some (i, o, at_, n)) : walksWait (withStall s (some (stallAt s false i n))) = true := by
  obtain ⟨p, hw, hread, hhead, -, hcatch⟩ := walkReady_some h
  have same := sameEntries_withStall s (some (stallAt s false i n))
  have hst := stalledAt_withStall s false i n
  refine walksWait_of_walk (w := w) (i := i) (o := o) (at_ := at_) (n := n) (walkReady_of (p := p) ?_ ?_ ?_ (.inl hst) ?_) hst
  · rw [← hw]
    cases w <;> rfl
  · rw [same.readable]
    exact hread
  · rw [same.walkHead]
    exact hhead
  · rw [same.music, same.catchHead rfl]
    exact hcatch

theorem walksWait_withStall_catch {s : State} {d : Division} {i : EntryNo} {o : Pos} {at_ : Nat} {n : StepNo}
    (h : catchHead s d = some (i, o, at_, n)) : walksWait (withStall s (some (stallAt s true i n))) = true :=
  walksWait_of_catch (d := d) (o := o) (at_ := at_)
    (((sameEntries_withStall s (some (stallAt s true i n))).catchHead rfl d).trans h) (stalledAt_withStall s true i n)

/-! ### What is done with a step (R132) -/

/-- Step `n` of entry `i` has been dealt with between `s` and `t`: passed over, dropped, or placed with its tie. -/
def Dealt (s t : State) (i : EntryNo) (o : Pos) (n : StepNo) : Prop :=
  let d := (stepRec s n).music.division
  let x := o + ((stepRec s n).music.onset : Int) * 256
  let y := releasePos s i o n
  let act (kind : ActKind) (pos : Pos) : Action :=
    { kind := kind, pos := pos, step := n, entry := i, keys := effectiveKeys s i n, heldOver := [], relPos := y, waitOn := none }
  keyed s i n = true ∧ t.follower = s.follower ∧ t.clock = s.clock ∧ t.detector = s.detector ∧ t.handler = s.handler ∧
    t.sched.holds = s.sched.holds ∧ t.store.chains = s.store.chains ∧ (∀ k, k ≠ n → stepRec t k = stepRec s k) ∧
    (∀ e, e ≠ d → queue t e = queue s e) ∧
    (overridden s d = true → queue t d = queue s d ∧ stepRec t n = stepRec s n) ∧
    (overridden s d = false → y ≤ position s → queue t d = queue s d ∧
      ((stepRec s n).list ≠ 0 → stepRec t n = { stepRec s n with sounding := .dropped })) ∧
    (overridden s d = false → position s < y → (queue s d).length ≤ 46 ∧
      ((stepRec s n).list ≠ 0 → stepRec t n = { stepRec s n with sounding := .notYet }) ∧
      ((stepRec s n).music.tie = false →
        queue t d = insertAction (insertAction (queue s d) (act .press x)) (act .release y)) ∧
      ((stepRec s n).music.tie = true →
        let tied := applyTie (queue s d) x (effectiveKeys s i n)
        queue t d = insertAction (insertAction tied.1 { act .press x with keys := tied.2.1, heldOver := tied.2.2 })
          { act .release y with heldOver := tied.2.2 }))

theorem Dealt.of_same {s u t : State} {i : EntryNo} {o : Pos} {n : StepNo} (h : Dealt s u i o n) (hf : t.follower = u.follower)
    (hc : t.clock = u.clock) (hd : t.detector = u.detector) (hh : t.handler = u.handler) (hs : t.store = u.store)
    (hq : t.sched.queues = u.sched.queues) (hv : t.sched.holds = u.sched.holds) : Dealt s t i o n := by
  have hqueue (e : Division) : queue t e = queue u e := by rw [queue, hq]; rfl
  unfold Dealt at *
  simp only [hf, hc, hd, hh, hv, hs, hqueue, stepRec_of_store hs]
  exact h

theorem dealOf_cases (s : State) (i : EntryNo) (o : Pos) (n : StepNo) :
    (overridden s (stepRec s n).music.division = true ∧ dealOf s i o n = .passOver) ∨
    (overridden s (stepRec s n).music.division = false ∧ releasePos s i o n ≤ position s ∧ dealOf s i o n = .tooLate) ∨
    (overridden s (stepRec s n).music.division = false ∧ position s < releasePos s i o n ∧
      ((¬46 < (queue s (stepRec s n).music.division).length ∧ dealOf s i o n = .place) ∨
        (46 < (queue s (stepRec s n).music.division).length ∧ dealOf s i o n = .noRoom))) := by
  simp only [dealOf]
  by_cases ho : overridden s (stepRec s n).music.division = true
  · exact .inl ⟨ho, if_pos ho⟩
  · refine .inr ?_
    rw [if_neg ho]
    by_cases hy : releasePos s i o n ≤ position s
    · exact .inl ⟨Bool.eq_false_iff.mpr ho, hy, if_pos hy⟩
    · refine .inr ⟨Bool.eq_false_iff.mpr ho, not_le.mp hy, ?_⟩
      rw [if_neg hy]
      by_cases hr : hasRoom s (stepRec s n).music.division = true
      · exact .inl ⟨hasRoom_iff.mp hr, if_pos hr⟩
      · exact .inr ⟨not_not.mp (mt hasRoom_iff.mpr hr), if_neg hr⟩

theorem dealWith_of_noRoom {s : State} {c : Bool} {i : EntryNo} {o : Pos} {n : StepNo} (h : dealOf s i o n = .noRoom) :
    dealWith s c i o n = withStall s (some (stallAt s c i n)) := by
  rw [dealWith, h]
  rfl

/-- Dealing with a step ends the wait for room, and leaves the walks' places to the caller. -/
theorem dealWith_walks {s : State} {c : Bool} {i : EntryNo} {o : Pos} {n : StepNo} (h : dealOf s i o n ≠ .noRoom) :
    (dealWith s c i o n).sched = { s.sched with queues := (dealWith s c i o n).sched.queues, stalled := none } := by
  unfold dealWith
  split
  · rfl
  · simp [withStall]
  · exact absurd ‹_› h
  · simp [withStall, placeStep, withQueue]

theorem queue_withStall (s : State) (w : Option Stall) (d : Division) : queue (withStall s w) d = queue s d := rfl

theorem stepRec_withStall (s : State) (w : Option Stall) (n : StepNo) : stepRec (withStall s w) n = stepRec s n := rfl

/-- The keys of a placed step, after its tie: the queue, the keys left to the press, the keys held over. -/
def tiedOf (s : State) (i : EntryNo) (o : Pos) (n : StepNo) : List Action × List Key × List HeldKey :=
  if (stepRec s n).music.tie then applyTie (queue s (stepRec s n).music.division) (pressPos s o n) (effectiveKeys s i n)
  else (queue s (stepRec s n).music.division, effectiveKeys s i n, [])

/-- The action of a placed step. -/
def placedAct (s : State) (i : EntryNo) (o : Pos) (n : StepNo) (kind : ActKind) (pos : Pos) : Action :=
  { kind := kind, pos := pos, step := n, entry := i, keys := effectiveKeys s i n, heldOver := [], relPos := releasePos s i o n
    waitOn := none }

/-- The queue a step is placed in. -/
def placedQueue (s : State) (i : EntryNo) (o : Pos) (n : StepNo) : List Action :=
  insertAction
    (insertAction (tiedOf s i o n).1
      { placedAct s i o n .press (pressPos s o n) with keys := (tiedOf s i o n).2.1, heldOver := (tiedOf s i o n).2.2 })
    { placedAct s i o n .release (releasePos s i o n) with heldOver := (tiedOf s i o n).2.2 }

theorem placeStep_eq (s : State) (i : EntryNo) (o : Pos) (n : StepNo) : placeStep s i o n =
    writeSounding (withQueue s (stepRec s n).music.division (placedQueue s i o n)) n .notYet := rfl

theorem dealt_dealWith {s : State} (c : Bool) {i : EntryNo} {o : Pos} {n : StepNo} (hk : keyed s i n = true)
    (h : dealOf s i o n ≠ .noRoom) : Dealt s (dealWith s c i o n) i o n := by
  have hwalks := dealWith_walks (c := c) h
  rcases dealOf_cases s i o n with ⟨ho, hdeal⟩ | ⟨ho, hy, hdeal⟩ | ⟨ho, hy, ⟨hroom, hdeal⟩ | ⟨-, hdeal⟩⟩
  · have heq : dealWith s c i o n = withStall s none := by rw [dealWith, hdeal]
    rw [heq]
    exact ⟨hk, rfl, rfl, rfl, rfl, rfl, rfl, fun _ _ => rfl, fun _ _ => rfl, fun _ => ⟨rfl, rfl⟩,
      fun h0 => absurd (ho.symm.trans h0) nofun, fun h0 => absurd (ho.symm.trans h0) nofun⟩
  · have heq : dealWith s c i o n = withStall (writeSounding s n .dropped) none := by rw [dealWith, hdeal]
    have hsched : (writeSounding s n .dropped).sched = s.sched := by simp
    rw [heq]
    refine ⟨hk, by simp, by simp, by simp, by simp, by simp [withStall], chains_writeSounding s n _, fun k hkn => ?_, fun e _ => ?_,
      fun h0 => absurd (ho.symm.trans h0) nofun, fun _ _ => ⟨?_, fun hl => ?_⟩, fun _ h0 => absurd hy (not_le.mpr h0)⟩
    · rw [stepRec_withStall, stepRec_writeSounding, if_neg fun hx => hkn hx.1]
    · rw [queue_withStall, queue, hsched]; rfl
    · rw [queue_withStall, queue, hsched]; rfl
    · rw [stepRec_withStall, stepRec_writeSounding, if_pos ⟨rfl, hl⟩]
  · let u := withQueue s (stepRec s n).music.division (placedQueue s i o n)
    have heq : dealWith s c i o n = withStall (writeSounding u n .notYet) none := by rw [dealWith, hdeal, placeStep_eq]
    have hsched : (writeSounding u n .notYet).sched = u.sched := by simp
    have hrec (k : StepNo) : stepRec u k = stepRec s k := stepRec_of_store rfl k
    have hqueue (e : Division) : queue (withStall (writeSounding u n .notYet) none) e =
        if e = (stepRec s n).music.division then placedQueue s i o n else queue s e := by
      rw [queue_withStall, queue, hsched]
      exact queue_withQueue s _ e _
    rw [heq]
    refine ⟨hk, by simp [u, withQueue], by simp [u, withQueue], by simp [u, withQueue], by simp [u, withQueue],
      by simp [u, withStall, withQueue], chains_writeSounding u n _, fun k hkn => ?_, fun e he => ?_,
      fun h0 => absurd (ho.symm.trans h0) nofun, fun _ h0 => absurd h0 (not_le.mpr hy), fun _ _ => ⟨Nat.le_of_not_lt hroom, fun hl => ?_,
      fun ht => ?_, fun ht => ?_⟩⟩
    · rw [stepRec_withStall, stepRec_writeSounding, if_neg fun hx => hkn hx.1, hrec]
    · rw [hqueue, if_neg he]
    · rw [stepRec_withStall, stepRec_writeSounding, hrec, if_pos ⟨rfl, hl⟩]
    · rw [hqueue, if_pos rfl]
      have htied : tiedOf s i o n = (queue s (stepRec s n).music.division, effectiveKeys s i n, []) :=
        if_neg (by rw [ht]; nofun)
      rw [placedQueue, htied]
      rfl
    · rw [hqueue, if_pos rfl]
      have htied : tiedOf s i o n = applyTie (queue s (stepRec s n).music.division) (pressPos s o n) (effectiveKeys s i n) :=
        if_pos ht
      rw [placedQueue, htied]
      rfl
  · exact absurd hdeal h

/-! ### The two rows -/

/-- A walk deals with its step: one that waits for room when there is room, any other when none waits and its step needs no room or finds
it. -/
def Deals (s : State) (c : Bool) (i : EntryNo) (o : Pos) (n : StepNo) : Prop :=
  (stalledAt s c i n = true ∧ ¬46 < (queue s (stepRec s n).music.division).length) ∨
    ((stalledAt s c i n = false ∧ walksWait s = false) ∧
      (overridden s (stepRec s n).music.division = true ∨ releasePos s i o n ≤ position s ∨
        ¬46 < (queue s (stepRec s n).music.division).length))

/-- A walk begins to wait for room. -/
def Waits (s : State) (c : Bool) (i : EntryNo) (o : Pos) (n : StepNo) : Prop :=
  (stalledAt s c i n = false ∧ walksWait s = false) ∧ 46 < (queue s (stepRec s n).music.division).length ∧
    overridden s (stepRec s n).music.division = false ∧ position s < releasePos s i o n

theorem Deals.may {s : State} {c : Bool} {i : EntryNo} {o : Pos} {n : StepNo} (h : Deals s c i o n) :
    mayDeal s c i n = true ∧ dealOf s i o n ≠ .noRoom := by
  rcases h with ⟨hst, hroom⟩ | ⟨⟨hst, hw⟩, hcase⟩
  · refine ⟨by rw [mayDeal, if_pos hst]; exact hasRoom_iff.mpr hroom, fun hdeal => ?_⟩
    rcases dealOf_cases s i o n with ⟨-, hd⟩ | ⟨-, -, hd⟩ | ⟨-, -, ⟨-, hd⟩ | ⟨hfull, -⟩⟩
    · rw [hd] at hdeal; cases hdeal
    · rw [hd] at hdeal; cases hdeal
    · rw [hd] at hdeal; cases hdeal
    · exact hroom hfull
  · refine ⟨by rw [mayDeal, if_neg (by rw [hst]; nofun), hw]; rfl, fun hdeal => ?_⟩
    rcases dealOf_cases s i o n with ⟨-, hd⟩ | ⟨-, -, hd⟩ | ⟨ho, hy, ⟨-, hd⟩ | ⟨hfull, -⟩⟩
    · rw [hd] at hdeal; cases hdeal
    · rw [hd] at hdeal; cases hdeal
    · rw [hd] at hdeal; cases hdeal
    · rcases hcase with h | h | h
      · rw [ho] at h; cases h
      · exact absurd h (not_le.mpr hy)
      · exact h hfull

theorem Waits.may {s : State} {c : Bool} {i : EntryNo} {o : Pos} {n : StepNo} (h : Waits s c i o n) :
    mayDeal s c i n = true ∧ dealOf s i o n = .noRoom := by
  obtain ⟨⟨hst, hw⟩, hfull, ho, hy⟩ := h
  refine ⟨by rw [mayDeal, if_neg (by rw [hst]; nofun), hw]; rfl, ?_⟩
  rcases dealOf_cases s i o n with ⟨h, -⟩ | ⟨-, h, -⟩ | ⟨-, -, ⟨h, -⟩ | ⟨-, hd⟩⟩
  · rw [ho] at h; cases h
  · exact absurd h (not_le.mpr hy)
  · exact absurd hfull h
  · exact hd

/-- A walk may not deal with its step: it waits and there is no room, or another walk waits. -/
theorem mayDeal_of_full {s : State} {c : Bool} {i : EntryNo} {n : StepNo} (hst : stalledAt s c i n = true)
    (hfull : 46 < (queue s (stepRec s n).music.division).length) : mayDeal s c i n = false := by
  rw [mayDeal, if_pos hst]
  exact Bool.eq_false_iff.mpr fun h => hasRoom_iff.mp h hfull

theorem mayDeal_of_waiting {s : State} {c : Bool} {i : EntryNo} {n : StepNo} (hst : stalledAt s c i n = false)
    (hw : walksWait s = true) : mayDeal s c i n = false := by
  rw [mayDeal, if_neg (by rw [hst]; nofun), hw]
  rfl

section
variable {s : State} {w : WalkSel} {d : Division} {i : EntryNo} {o : Pos} {at_ : Nat} {n : StepNo}

theorem stepPlaceReady_eq (h : walkReady s w = some (i, o, at_, n)) : stepPlaceReady s w = mayDeal s false i n := by
  rw [stepPlaceReady, h]

theorem catchUpReady_eq (h : catchHead s d = some (i, o, at_, n)) : catchUpReady s d = mayDeal s true i n := by
  rw [catchUpReady, h]

theorem placeFromWalk_stalls (h : walkReady s w = some (i, o, at_, n)) (hdeal : dealOf s i o n = .noRoom) :
    placeFromWalk s w = withStall s (some (stallAt s false i n)) := by
  rw [placeFromWalk, h, ← dealWith_of_noRoom hdeal]
  exact if_pos hdeal

theorem placeFromWalk_deals (h : walkReady s w = some (i, o, at_, n)) (hdeal : dealOf s i o n ≠ .noRoom) :
    placeFromWalk s w = waitingSwitches (withWalk (dealWith s false i o n) w (some (at_ + 1))) := by
  rw [placeFromWalk, h]
  exact if_neg hdeal

theorem placeFromCatchUp_stalls {c : CatchUp} (hc : s.sched.catchUp.get d = some c) (h : catchHead s d = some (i, o, at_, n))
    (hdeal : dealOf s i o n = .noRoom) : placeFromCatchUp s d = withStall s (some (stallAt s true i n)) := by
  rw [placeFromCatchUp, h, hc, ← dealWith_of_noRoom hdeal]
  exact if_pos hdeal

/-- `u` with the catch-up walk of `d` moved past place `at_` of entry `i`. -/
def withCatchPast (u : State) (d : Division) (c : CatchUp) (i : EntryNo) (at_ : Nat) : State :=
  u.withSched { u.sched with catchUp := u.sched.catchUp.set d (some { c with parts := catchPast i at_ c.parts }) }

theorem placeFromCatchUp_deals {c : CatchUp} (hc : s.sched.catchUp.get d = some c) (h : catchHead s d = some (i, o, at_, n))
    (hdeal : dealOf s i o n ≠ .noRoom) :
    placeFromCatchUp s d = waitingSwitches (withCatchPast (dealWith s true i o n) d c i at_) := by
  rw [placeFromCatchUp, h, hc]
  exact if_neg hdeal

/-- The switches that wait leave what was done with a step. -/
theorem Dealt.switches {v : State} (h : Dealt s v i o n) : Dealt s (waitingSwitches v) i o n := by
  have hactions := waitingSwitches_actions v
  unfold SameActions at hactions
  exact h.of_same (by simp) (by simp) (by simp) (by simp) (by simp) (by rw [hactions]) (by rw [hactions])

theorem withWalk_sched (u : State) (w : WalkSel) (p : Option Nat) : (withWalk u w p).sched = { u.sched with
    walkCurrent := if w = .current then p else u.sched.walkCurrent, walkNext := if w = .next then p else u.sched.walkNext } := by
  cases w <;> rfl

end

/-- Settles O51: a step is stalled or dealt with by either kind of walk, and the tie's laws are those of its keys taken in turn. -/
theorem walksDealWithSteps : Obligations.WalksDealWithSteps := by
  unfold Obligations.WalksDealWithSteps
  constructor
  · intro s hr
    refine ⟨walksWait_of_no_stall, fun w h => ?_, fun d h => ?_, fun w i o at_ n h => ?_, fun d c i o at_ n hc h => ?_⟩
    · exact exec_of_not_due (act := placeFromWalk s w) rfl (by rw [stepPlaceReady, h])
    · exact exec_of_not_due (act := placeFromCatchUp s d) rfl (by rw [catchUpReady, h])
    · obtain ⟨p, hw, hread, hhead, hlook, hcatch⟩ := walkReady_some h
      have stays (hm : mayDeal s false i n = false) : exec (.stepPlace w) s = .next s :=
        exec_of_not_due (act := placeFromWalk s w) rfl ((stepPlaceReady_eq h).trans hm)
      have goes (hm : mayDeal s false i n = true) : exec (.stepPlace w) s = .next (placeFromWalk s w) :=
        exec_of_due (act := placeFromWalk s w) rfl ((stepPlaceReady_eq h).trans hm) hr
      refine ⟨fun hst => hlook.resolve_left (by rw [hst]; nofun), fun ⟨hst, hfull⟩ => stays (mayDeal_of_full hst hfull),
        fun hst hwait => stays (mayDeal_of_waiting hst hwait), fun hwaits => ?_, fun hdeals => ?_⟩
      · obtain ⟨hm, hdeal⟩ := Waits.may hwaits
        exact ⟨_, goes hm, by rw [placeFromWalk_stalls h hdeal]; exact walksWait_withStall_walk h, placeFromWalk_stalls h hdeal⟩
      · obtain ⟨hm, hdeal⟩ := Deals.may hdeals
        have hexec := goes hm
        rw [placeFromWalk_deals h hdeal] at hexec
        let v := withWalk (dealWith s false i o n) w (some (at_ + 1))
        have hv : v.sched = _ := withWalk_sched (dealWith s false i o n) w (some (at_ + 1))
        have hdealt : Dealt s v i o n := (dealt_dealWith false (findFrom_holds hhead) hdeal).of_same (by simp [v]) (by simp [v])
          (by simp [v]) (by simp [v]) (by simp [v]) (by rw [hv]) (by rw [hv])
        have hactions := waitingSwitches_actions v
        unfold SameActions at hactions
        rw [hv, dealWith_walks hdeal] at hactions
        exact ⟨_, hexec, hdealt.switches, by rw [hactions], by rw [hactions], by rw [hactions], by rw [hactions]⟩
    · obtain ⟨hkeyed, hdiv, hlift⟩ := catchHead_some hc h
      have stays (hm : mayDeal s true i n = false) : exec (.catchUpPlace d) s = .next s :=
        exec_of_not_due (act := placeFromCatchUp s d) rfl ((catchUpReady_eq h).trans hm)
      have goes (hm : mayDeal s true i n = true) : exec (.catchUpPlace d) s = .next (placeFromCatchUp s d) :=
        exec_of_due (act := placeFromCatchUp s d) rfl ((catchUpReady_eq h).trans hm) hr
      refine ⟨hdiv, hlift, fun ⟨hst, hfull⟩ => stays (mayDeal_of_full hst hfull),
        fun hst hwait => stays (mayDeal_of_waiting hst hwait), fun hwaits => ?_, fun hdeals => ?_⟩
      · obtain ⟨hm, hdeal⟩ := Waits.may hwaits
        exact ⟨_, goes hm, by rw [placeFromCatchUp_stalls hc h hdeal]; exact walksWait_withStall_catch h,
          placeFromCatchUp_stalls hc h hdeal⟩
      · obtain ⟨hm, hdeal⟩ := Deals.may hdeals
        have hexec := goes hm
        rw [placeFromCatchUp_deals hc h hdeal] at hexec
        let v := withCatchPast (dealWith s true i o n) d c i at_
        have hdealt : Dealt s v i o n := (dealt_dealWith true hkeyed hdeal).of_same (by simp [v, withCatchPast])
          (by simp [v, withCatchPast]) (by simp [v, withCatchPast]) (by simp [v, withCatchPast]) (by simp [v, withCatchPast])
          (by simp [v, withCatchPast]) (by simp [v, withCatchPast])
        have hv : v.sched = { (dealWith s true i o n).sched with
            catchUp := (dealWith s true i o n).sched.catchUp.set d (some { c with parts := catchPast i at_ c.parts }) } := rfl
        have hactions := waitingSwitches_actions v
        unfold SameActions at hactions
        rw [hv, dealWith_walks hdeal] at hactions
        exact ⟨_, hexec, hdealt.switches, by rw [hactions], by rw [hactions], by rw [hactions],
          by rw [hactions]; exact PerDiv.get_set_same _ _ _⟩
  · intro q x keys hn
    obtain ⟨hkeys, hpress, hheld, hcount, hmem, hkept⟩ := applyTie_laws q x keys hn
    have carries (k : Key) (b : Action) := tieSource_iff (x := x) (k := k) (b := b)
    simp only [carries] at hkeys hheld
    refine ⟨hkeys, hpress, hheld, hcount, fun b hb => ?_, fun b hb _ _ hnil => ?_, fun b hb hno => hkept b hb fun k hk => ?_⟩
    · obtain ⟨b0, hb0, heq, hsub, htaken, -⟩ := hmem b hb
      exact ⟨b0, hb0, heq, hsub, htaken⟩
    · obtain ⟨b0, hb0, -, -, -, hsame⟩ := hmem b hb
      rw [hsame hnil]
      exact hb0
    · exact Bool.eq_false_iff.mpr (mt tieSource_iff.mp (hno k hk))

end Machine

end Sys2Proof
end
